-- ==== Sys2Proof/Word.lean ====
section
/-! DEFINITION. The plain data words of the TCMT: bytes, pin handles and frames of bytes
(00_scope.md R11, 20_memory.md R60). -/

namespace Sys2Proof

/-- A byte of a frame, bit 0 its least significant bit (R11). -/
abbrev Byte := BitVec 8

/-- A pin handle, opaque to the block (60_exceptions.md R280). -/
abbrev Handle := Nat

/-- An interrupt trigger mode, opaque to the block (92_eei_decisions.md D44). -/
abbrev IrqMode := Nat

end Sys2Proof
end

