-- ==== Sys2Proof/Config.lean ====
section
/-! DEFINITION. What an implementation of the TCMT fixes (00_scope.md R10): the parameters of an instance, the protocol
literals among them, and the two values that the spec leaves open and that no rule gives (R66, D2). -/

namespace Sys2Proof

/-- The protocol literals of R10 (M21), each a configuration field of the instance whose default is the value the spec
gives. SCREEN_W bounds screen_max_x and screen_max_y, which stand in 16-bit registers (R31). -/
structure Config.Literals where
  cmdLen : Nat := 4
  rptLen : Nat := 25
  helloLen : Nat := 4
  helloByte : Byte := 0x55
  mkRequest : Byte := 0x53
  mkWrite : Byte := 0x54
  mkResponse : Byte := 0x52
  opReport : Byte := 0x5D
  opNoise : Byte := 0x40
  opCalib : Byte := 0x66
  opHello : Byte := 0x55
  noisyFlag : Byte := 0x41
  cmdFwVer : Byte := 0x00
  cmdPower : Byte := 0x50
  cmdFinger : Byte := 0x51
  cmdPacket : Byte := 0x8E
  cmdWidth : Byte := 0x63
  cmdHeight : Byte := 0x60
  nSlots : Nat := 5
  slotBase : Nat := 2
  slotStride : Nat := 3
  fcMask : Byte := 0x07
  pwrBit : Nat := 3
  pktOn : Byte := 0x00
  pktOff : Byte := 0x01
  screenW : Nat := 16
deriving DecidableEq, Repr

/-- The default literals of R10, which the words of the opcode table have. -/
def Config.lit : Config.Literals := {}

/-- The byte of the power write that carries the power bit: PWR_WRITE_BYTE of R132, 1, 2 or 3. -/
inductive PowerByte where
  | command
  | paramHi
  | paramLo
deriving DecidableEq, Repr

/-- The byte of the packet write that carries the packet state: PKT_WRITE_BYTE of R136, 2 or 3. -/
inductive PacketByte where
  | paramHi
  | paramLo
deriving DecidableEq, Repr

/-- A data byte of a response: resp[1], resp[2] or resp[3] (R85). -/
inductive RespByte where
  | r1
  | r2
  | r3
deriving DecidableEq, Repr

/-- Where `sensor_max_x` and `sensor_max_y` come from: SENSOR_MAX_SOURCE of R10 (D14). -/
inductive SensorSource where
  | queried
  | config
deriving DecidableEq, Repr

/-- The two parameter bytes of a read request, READ_PARAMS(cmd) of R10 (D4). -/
structure ReadParams where
  hi : Byte := 0x00
  lo : Byte := 0x00
deriving DecidableEq, Repr

/-- The parameters of R10 that an instance fixes, with the defaults of R10. `State` carries them and no step
writes them, so a statement about every state holds for every choice of them. -/
structure Params where
  lit : Config.Literals := Config.lit
  readFwVer : ReadParams := {}
  readPower : ReadParams := {}
  readFinger : ReadParams := {}
  readPacket : ReadParams := {}
  readWidth : ReadParams := {}
  readHeight : ReadParams := {}
  writeParamOther : Byte := 0x00
  pwrWriteByte : PowerByte := .paramHi
  pwrReadByte : RespByte := .r1
  pktWriteByte : PacketByte := .paramHi
  pktReadByte : RespByte := .r2
  writeExpectsResponse : Bool := false
  tSettleMs : Nat := 10
  tQGapMs : Nat := 10
  tResumeMs : Nat := 10
  tRstLowMs : Nat := 15
  tRstHighMs : Nat := 15
  tHelloWaitMs : Nat := 0
  tSuspGapMs : Nat := 0
  helloRecvFatal : Bool := true
  ackGatesReceive : Bool := true
  syncAfterRelease : Bool := true
  sensorMaxSource : SensorSource := .queried
deriving DecidableEq, Repr

/-- The arbiter's free choice between a pending host request (`true`) and a pending interrupt (`false`), the
`n`-th time it is taken (R66, M22). A FREE VALUE: nothing is known of it (log 4). -/
opaque Config.arbiterFree : Nat → Bool

/-- BUS_ADDR, the chip's address on the bus (R74, D2). OPEN in the spec, a FREE VALUE here (log 18). -/
opaque Config.busAddr : Nat

end Sys2Proof
end

