-- ==== Sys2Proof/Syntax.lean ====
section
/-! DEFINITION. The instructions of the TCMT: one constructor of `Instr` for each row of spec/opcode_table.json
(30_encoding.md R80 to R94), and the operands they carry. -/

namespace Sys2Proof

/-- The configuration record of ATTACH (60_exceptions.md R282). A field that the platform did not supply is
`none`; integers are unbounded, because range is what `Valid(cfg)` checks. -/
structure CfgRecord where
  smx : Option Int := none
  smy : Option Int := none
  rx : Option Bool := none
  ry : Option Bool := none
  xy : Option Bool := none
  irqMode : Option IrqMode := none
  snx : Option Int := none
  sny : Option Int := none
deriving DecidableEq, Repr

/-- The unit operations of the message catalog (41_message_catalog.md R131 to R140). -/
inductive UnitOp where
  | fwVerRead
  | powerRead
  | powerWrite (on : Bool)
  | fingerRead
  | packetWrite (on : Bool)
  | packetRead
  | widthRead
  | heightRead
deriving DecidableEq, Repr

/-- The instructions, one constructor for each row of the opcode table. Frames carry the bytes their row leaves
open, byte 0 first (R60). -/
inductive Instr where
  /-- REQ FW_VER, F-REQ-FW (R84, R131). -/
  | reqFwVer
  /-- REQ POWER, F-REQ-PWR (R84, R133). -/
  | reqPower
  /-- WR POWER on, F-WR-PWR-ON (R84, R132). -/
  | wrPowerOn
  /-- WR POWER off, F-WR-PWR-OFF (R84, R132). -/
  | wrPowerOff
  /-- REQ FINGER, F-REQ-FNG (R84, R135). -/
  | reqFinger
  /-- WR PACKET on, F-WR-PKT-ON (R84, R136). -/
  | wrPacketOn
  /-- WR PACKET off, F-WR-PKT-OFF (R84, R136). -/
  | wrPacketOff
  /-- REQ PACKET, F-REQ-PKT (R84, R137). -/
  | reqPacket
  /-- REQ WIDTH, F-REQ-W (R84, R139). -/
  | reqWidth
  /-- REQ HEIGHT, F-REQ-H (R84, R140). -/
  | reqHeight
  /-- A response with marker 0x52 (R85, R112). -/
  | resp (r1 r2 r3 : Byte)
  /-- A response with any other marker (R93 a, R112). -/
  | respBadMarker (marker r1 r2 r3 : Byte)
  /-- The good hello, 55 55 55 55 (R86, R203). -/
  | hello
  /-- A hello of any other four bytes (R86, R203). -/
  | helloMismatch (b0 b1 b2 b3 : Byte)
  /-- An interrupt frame with opcode 0x5D: byte 1, then bytes 2..24 (R87, R242). -/
  | irqReport (b1 : Byte) (rest : List Byte)
  /-- An interrupt frame with opcode 0x40: the flag byte, then bytes 2..24 (R87, R243). -/
  | irqNoise (flag : Byte) (rest : List Byte)
  /-- An interrupt frame with opcode 0x66: bytes 1..24 (R87, R244). -/
  | irqCalib (rest : List Byte)
  /-- An interrupt frame with opcode 0x55: bytes 1..24 (R87, R245). -/
  | irqHello (rest : List Byte)
  /-- An interrupt frame with any other opcode: the opcode and bytes 1..24 (R89, R241). -/
  | irqOther (opcode : Byte) (rest : List Byte)
  /-- Host request 0, ATTACH(cfg); `none` is an absent record (R92, R201, R282). -/
  | attach (cfg : Option CfgRecord)
  /-- Host request 1, SUSPEND (R92, R210). -/
  | suspend
  /-- Host request 2, RESUME (R92, R214). -/
  | resume
  /-- Host request 3, DETACH (R92, R218). -/
  | detach
  /-- Host request 4, FINGER_QUERY (R92, R222). -/
  | fingerQuery
  /-- Host request 5, reserved (R92, R200). -/
  | reserved5
  /-- Host request 6, reserved (R92, R200). -/
  | reserved6
  /-- Host request 7, reserved (R92, R200). -/
  | reserved7
  /-- One assertion of the interrupt line (10_state.md R34, 45_dispatcher.md R240). -/
  | irqLine
deriving DecidableEq, Repr

/-- The command instruction that a unit operation sends (R84). -/
def UnitOp.instr : UnitOp → Instr
  | .fwVerRead => .reqFwVer
  | .powerRead => .reqPower
  | .powerWrite true => .wrPowerOn
  | .powerWrite false => .wrPowerOff
  | .fingerRead => .reqFinger
  | .packetWrite true => .wrPacketOn
  | .packetWrite false => .wrPacketOff
  | .packetRead => .reqPacket
  | .widthRead => .reqWidth
  | .heightRead => .reqHeight

/-- The ten unit operations in the order of R84's frame table. -/
def UnitOp.all : List UnitOp :=
  [.fwVerRead, .powerRead, .powerWrite true, .powerWrite false, .fingerRead, .packetWrite true,
   .packetWrite false, .packetRead, .widthRead, .heightRead]

/-- Whether a unit operation is a write (R130, R142). -/
def UnitOp.isWrite : UnitOp → Bool
  | .powerWrite _ => true
  | .packetWrite _ => true
  | _ => false

end Sys2Proof
end

