-- ==== Sys2Proof/WellFormed.lean ====
section
/-! DEFINITION. Which terms of `Instr` stand for an encoding of the opcode table (30_encoding.md R80, R86, R89,
R93): frame lengths, and the values that a row excludes because another row holds them. The literals are those of an
instance; the table's own are the defaults. -/

namespace Sys2Proof

/-- The number of bytes that a frame carries after the bytes its constructor names (R80: 25 in all). -/
def Instr.payloadOk (l : Config.Literals) : Instr → Bool
  | .irqReport _ rest => rest.length == l.rptLen - 2
  | .irqNoise _ rest => rest.length == l.rptLen - 2
  | .irqCalib rest => rest.length == l.rptLen - 1
  | .irqHello rest => rest.length == l.rptLen - 1
  | .irqOther _ rest => rest.length == l.rptLen - 1
  | _ => true

/-- The values that a "any other" row leaves to its neighbours (R86, R89, R93 a). -/
def Instr.excludedOk (l : Config.Literals) : Instr → Bool
  | .respBadMarker m _ _ _ => m != l.mkResponse
  | .helloMismatch b0 b1 b2 b3 =>
    [b0, b1, b2, b3] != List.replicate l.helloLen l.helloByte
  | .irqOther op _ =>
    op != l.opReport && op != l.opNoise && op != l.opCalib && op != l.opHello
  | _ => true

/-- A well-formed instruction of the opcode table, or of an instance with other literals. -/
def Instr.WellFormed (i : Instr) (l : Config.Literals := Config.lit) : Bool := i.payloadOk l && i.excludedOk l

end Sys2Proof
end

