-- ==== Sys2Proof/Decode.lean ====
section
/-! DEFINITION. The decoder and the encoder, both written from 30_encoding.md R81 to R92. The context in which
bits arrive fixes the frame kind (R91), so what is decoded is a `Wire`: the bits and the port they stand at. -/

namespace Sys2Proof

/-- A host request as it stands in the request port: a 3-bit code and an argument (10_state.md R42, R92). -/
structure HostReq where
  code : BitVec 3
  arg : Option CfgRecord
deriving DecidableEq, Repr

/-- Bits at a port of the block, the port naming the frame kind (R80, R91, R92). -/
inductive Wire where
  /-- A command frame that the sequencer is about to send (R84). -/
  | sent (frame : List Byte)
  /-- Four bytes received by a `transact` (R85). -/
  | reply (frame : List Byte)
  /-- Four bytes received by ATTACH's hello step (R86). -/
  | hello (frame : List Byte)
  /-- Twenty-five bytes received by a DISPATCH (R87). -/
  | irq (frame : List Byte)
  /-- A request in the request port (R92). -/
  | request (q : HostReq)
  /-- An assertion event of the interrupt line (10_state.md R34). -/
  | line
deriving DecidableEq, Repr

/-- Why bits have no instruction. -/
inductive Reject where
  /-- A chip-bound frame that is none of R84's ten (R94: "not sent by the TCMT"). -/
  | notSentByTcmt
  /-- A received frame of a length that R80 does not have. -/
  | wrongLength
deriving DecidableEq, Repr

/-- The parameter bytes of a read (R130). -/
def UnitOp.readParams (p : Params) : UnitOp → ReadParams
  | .fwVerRead => p.readFwVer
  | .powerRead => p.readPower
  | .fingerRead => p.readFinger
  | .packetRead => p.readPacket
  | .widthRead => p.readWidth
  | .heightRead => p.readHeight
  | .powerWrite _ => {}
  | .packetWrite _ => {}

/-- The command code of a unit operation (R83). -/
def UnitOp.command (p : Params) : UnitOp → Byte
  | .fwVerRead => p.lit.cmdFwVer
  | .powerRead => p.lit.cmdPower
  | .powerWrite _ => p.lit.cmdPower
  | .fingerRead => p.lit.cmdFinger
  | .packetWrite _ => p.lit.cmdPacket
  | .packetRead => p.lit.cmdPacket
  | .widthRead => p.lit.cmdWidth
  | .heightRead => p.lit.cmdHeight

/-- The power bit in its byte (R132): bit PWR_BIT is 1 for normal sensing. DESIGN CHOICE: a PWR_BIT above 7 is no bit of
the byte, and both writes then send the byte without it (log 5). -/
def powerBits (p : Params) (on : Bool) : Byte := (if on then 1 else 0) <<< p.lit.pwrBit

/-- The packet-state byte (R136, R138): inverted polarity against the power bit. -/
def packetBits (p : Params) (on : Bool) : Byte := if on then p.lit.pktOn else p.lit.pktOff

/-- The frame a unit operation sends, byte 0 first (R81, R84, R130, R132, R136). -/
def UnitOp.frame (p : Params) : UnitOp → List Byte
  | .powerWrite on =>
    match p.pwrWriteByte with
    | .command => [p.lit.mkWrite, p.lit.cmdPower ||| powerBits p on, 0x00, p.writeParamOther]
    | .paramHi => [p.lit.mkWrite, p.lit.cmdPower, 0x00 ||| powerBits p on, p.writeParamOther]
    | .paramLo => [p.lit.mkWrite, p.lit.cmdPower, 0x00, p.writeParamOther ||| powerBits p on]
  | .packetWrite on =>
    match p.pktWriteByte with
    | .paramHi => [p.lit.mkWrite, p.lit.cmdPacket, packetBits p on, p.writeParamOther]
    | .paramLo => [p.lit.mkWrite, p.lit.cmdPacket, 0x00, packetBits p on]
  | op => [p.lit.mkRequest, op.command p, (op.readParams p).hi, (op.readParams p).lo]

/-- Decoding a chip-bound frame: the row of R84 it is, or R94's rejection. -/
def decodeSent (p : Params) (f : List Byte) : Except Reject Instr :=
  match UnitOp.all.find? (fun op => op.frame p == f) with
  | some op => .ok op.instr
  | none => .error .notSentByTcmt

/-- Decoding a transaction response: only byte 0 is looked at (R85). -/
def decodeReply (p : Params) : List Byte → Except Reject Instr
  | [m, r1, r2, r3] => if m = p.lit.mkResponse then .ok (.resp r1 r2 r3) else .ok (.respBadMarker m r1 r2 r3)
  | _ => .error .wrongLength

/-- Decoding the four bytes of the hello step (R86). -/
def decodeHello (p : Params) : List Byte → Except Reject Instr
  | [b0, b1, b2, b3] =>
    if [b0, b1, b2, b3] = List.replicate p.lit.helloLen p.lit.helloByte then .ok .hello
    else .ok (.helloMismatch b0 b1 b2 b3)
  | _ => .error .wrongLength

/-- Decoding an interrupt frame by its opcode, byte 0 (R87, R89). -/
def decodeIrq (p : Params) (f : List Byte) : Except Reject Instr :=
  match f with
  | op :: b1 :: rest =>
    if rest.length ≠ p.lit.rptLen - 2 then .error .wrongLength
    else if op = p.lit.opReport then .ok (.irqReport b1 rest)
    else if op = p.lit.opNoise then .ok (.irqNoise b1 rest)
    else if op = p.lit.opCalib then .ok (.irqCalib (b1 :: rest))
    else if op = p.lit.opHello then .ok (.irqHello (b1 :: rest))
    else .ok (.irqOther op (b1 :: rest))
  | _ => .error .wrongLength

/-- Decoding a host request by its code (R92). The argument of a request other than ATTACH is absent (R42);
one that is not is ignored (log 14). -/
def decodeRequest (q : HostReq) : Instr :=
  match q.code with
  | 0 => .attach q.arg
  | 1 => .suspend
  | 2 => .resume
  | 3 => .detach
  | 4 => .fingerQuery
  | 5 => .reserved5
  | 6 => .reserved6
  | _ => .reserved7

/-- The decoder: total on any bits at any port, rejecting by name. -/
def decode (p : Params) : Wire → Except Reject Instr
  | .sent f => decodeSent p f
  | .reply f => decodeReply p f
  | .hello f => decodeHello p f
  | .irq f => decodeIrq p f
  | .request q => .ok (decodeRequest q)
  | .line => .ok .irqLine

/-- The encoder: the bits of an instruction at its port (R81 to R92). -/
def encode (p : Params) : Instr → Wire
  | .reqFwVer => .sent (UnitOp.frame p .fwVerRead)
  | .reqPower => .sent (UnitOp.frame p .powerRead)
  | .wrPowerOn => .sent (UnitOp.frame p (.powerWrite true))
  | .wrPowerOff => .sent (UnitOp.frame p (.powerWrite false))
  | .reqFinger => .sent (UnitOp.frame p .fingerRead)
  | .wrPacketOn => .sent (UnitOp.frame p (.packetWrite true))
  | .wrPacketOff => .sent (UnitOp.frame p (.packetWrite false))
  | .reqPacket => .sent (UnitOp.frame p .packetRead)
  | .reqWidth => .sent (UnitOp.frame p .widthRead)
  | .reqHeight => .sent (UnitOp.frame p .heightRead)
  | .resp r1 r2 r3 => .reply [p.lit.mkResponse, r1, r2, r3]
  | .respBadMarker m r1 r2 r3 => .reply [m, r1, r2, r3]
  | .hello => .hello (List.replicate p.lit.helloLen p.lit.helloByte)
  | .helloMismatch b0 b1 b2 b3 => .hello [b0, b1, b2, b3]
  | .irqReport b1 rest => .irq (p.lit.opReport :: b1 :: rest)
  | .irqNoise flag rest => .irq (p.lit.opNoise :: flag :: rest)
  | .irqCalib rest => .irq (p.lit.opCalib :: rest)
  | .irqHello rest => .irq (p.lit.opHello :: rest)
  | .irqOther op rest => .irq (op :: rest)
  | .attach cfg => .request ⟨0, cfg⟩
  | .suspend => .request ⟨1, none⟩
  | .resume => .request ⟨2, none⟩
  | .detach => .request ⟨3, none⟩
  | .fingerQuery => .request ⟨4, none⟩
  | .reserved5 => .request ⟨5, none⟩
  | .reserved6 => .request ⟨6, none⟩
  | .reserved7 => .request ⟨7, none⟩
  | .irqLine => .line

/-- The configuration record whose operand words are all zero: what the opcode table's ATTACH row stands for when
its operand has no bits (log 13). -/
def CfgRecord.zero : CfgRecord :=
  { smx := some 0, smy := some 0, rx := some false, ry := some false, xy := some false, irqMode := some 0,
    snx := some 0, sny := some 0 }

/-- The four bytes of the table's 32-bit word `W` (R81): byte 0 is `W[31:24]`. -/
def bytesOfW (w : Nat) : List Byte :=
  [BitVec.ofNat 8 (w >>> 24), BitVec.ofNat 8 (w >>> 16), BitVec.ofNat 8 (w >>> 8), BitVec.ofNat 8 w]

/-- `n` bytes of a number, byte 0 its low 8 bits: how an interrupt frame stands in one table word. R81 defines the word
of a command frame only; that byte 0 is low here is the model's choice (log 13). -/
def bytesOfLow (n w : Nat) : List Byte := (List.range n).map fun i => BitVec.ofNat 8 (w >>> (8 * i))

/-- The port at which an opcode-table word stands (log 13). The table gives the three kinds of row that fit a byte
no mark of their own: a byte up to 7 is read as a request code, any other byte as an interrupt opcode with 24 zero
bytes after it; a 32-bit word is one of R84's commands, the hello, or a response; a 200-bit word is a whole interrupt
frame, byte 0 in its low 8 bits. One bit is the interrupt line. -/
def tableWire (nbits w : Nat) : Option Wire :=
  if nbits = 32 then
    if UnitOp.all.any (fun op => op.frame {} == bytesOfW w) then some (.sent (bytesOfW w))
    else if bytesOfW w = List.replicate Config.lit.helloLen Config.lit.helloByte then some (.hello (bytesOfW w))
    else some (.reply (bytesOfW w))
  else if nbits = 8 then
    if w % 256 ≤ 7 then some (.request ⟨BitVec.ofNat 3 w, if w % 256 = 0 then some CfgRecord.zero else none⟩)
    else some (.irq (bytesOfLow Config.lit.rptLen (w % 256)))
  else if nbits = 8 * Config.lit.rptLen then some (.irq (bytesOfLow Config.lit.rptLen w))
  else if nbits = 1 then (if w % 2 = 1 then some .line else none)
  else none

/-- The instruction that the decoder reads from a word numbered as spec/opcode_table.json numbers it. -/
def decodeTableWord (nbits w : Nat) : Option Instr :=
  match tableWire nbits w with
  | none => none
  | some wire =>
    match decode {} wire with
    | .ok i => some i
    | .error _ => none

end Sys2Proof
end

