-- ==== Sys2Proof/Machine/State.lean ====
section
/-! DEFINITION. The architectural state of the TCMT (10_state.md R20 to R52) as plain data, and its reset value
(R50). ⊥, "no value" (R12), is the spec's own value of a register and is written `none`. -/

namespace Sys2Proof.Machine

/-- CUR_OP (R21), in the order of its 3-bit encoding 0..6. -/
inductive Op where
  | idle
  | attach
  | suspend
  | resume
  | detach
  | fingerQuery
  | dispatch
deriving DecidableEq, Repr

/-- STEP without its locals: the step labels of 44_lifecycle.md and 45_dispatcher.md (R21). -/
inductive StepName where
  | a0 | a1 | a2 | a3 | a4 | a5 | a6 | a7 | a8 | a9 | a10 | a11 | a12 | a13 | a14 | a15 | a16 | a17 | a18 | a19 | a20
  | b1 | b2 | b3 | b4 | b5 | b6 | b7
  | s0 | s1 | s2 | s3 | s4 | s5 | s6
  | u0 | u1 | u2 | u3 | u4 | u5 | u6 | u7 | u8 | u9
  | x0 | x1 | x2 | x3 | x4 | x5 | x6 | x7 | x8
  | f0 | f1 | f2 | f3
  | i1 | i2 | i3 | i4 | i5 | i6 | i7 | i8 | i9
deriving DecidableEq, Repr

/-- LIFE (R22), in the order of its 3-bit encoding 0..6. -/
inductive Life where
  | cold
  | reset
  | awaitHello
  | queryInfo
  | ready
  | suspended
  | detached
deriving DecidableEq, Repr

/-- A decoded PACKET_STATE (R30, R137). -/
inductive StreamState where
  | on
  | off
  | unrecognised (b : Byte)
deriving DecidableEq, Repr

/-- Why a unit operation failed: the Err of R41, with the info of R110 to R112. -/
inductive Err where
  /-- TransportSend, kind 1: the count `BusSend` reported (R110). -/
  | transportSend (requested : Nat) (reported : Int)
  /-- TransportRecv, kind 2: the count `BusRecv` reported (R111). -/
  | transportRecv (requested : Nat) (reported : Int)
  /-- Protocol, kind 3: the marker received (R112). -/
  | protocol (marker : Byte)
deriving DecidableEq, Repr

/-- The failure classes of R260, in the order of their kind codes 1..8. -/
inductive FailureClass where
  | transportSend
  | transportRecv
  | protocol
  | configError
  | initError
  | softWarning
  | normalizerDivZero
  | badRequest
deriving DecidableEq, Repr

/-- The value of a unit operation that succeeded (R130 to R140). -/
inductive UnitVal where
  | unit
  | fw (v : BitVec 16)
  | flag (b : Bool)
  | stream (v : StreamState)
  | dim (v : BitVec 12)
deriving DecidableEq, Repr

/-- A TransactionResult (R41). -/
inductive UnitResult where
  | ok (v : UnitVal)
  | err (e : Err)
deriving DecidableEq, Repr

/-- The sub-step labels of `transact` (R112). -/
inductive TStep where
  | t1
  | t2
  | t3
  | t4
deriving DecidableEq, Repr

/-- SUB (R21): a sub-step of a unit operation, or of DISPATCH step I6. -/
inductive Sub where
  | t (t : TStep)
  | e (j : Nat)
deriving DecidableEq, Repr

/-- The cause of an attach abort (R207). -/
inductive Cause where
  | pin
  | bus
  | host
  | transport (e : Err)
deriving DecidableEq, Repr

/-- A configuration record that `Valid(cfg)` accepts, in the widths of its registers (R31, R282). -/
structure ValidCfg where
  smx : BitVec 16
  smy : BitVec 16
  rx : Bool
  ry : Bool
  xy : Bool
  irqMode : IrqMode
  sensor : Option (BitVec 16 × BitVec 16)
deriving DecidableEq, Repr

/-- A host-input event (R166). -/
inductive HostEvent where
  | position (x y : Int)
  | touch (b : Bool)
  | sync
deriving DecidableEq, Repr

/-- STEP (R21). A label carries the locals of its step list that cross into it: ATTACH's record, the result `r` of
the read before it, the cause of an abort, the answer of the acknowledge, the events of I6 still to emit (log 23). -/
inductive Label where
  | a0 (cfg : Option CfgRecord) | a1 (cfg : Option CfgRecord) | a2 (cfg : ValidCfg)
  | a3 | a4 | a5 | a6 | a7 | a8 | a9 | a10 | a11 (v : BitVec 16) | a12 | a13 | a14 (v : BitVec 12)
  | a15 | a16 | a17 (v : BitVec 12) | a18 | a19 | a20
  | b1 (step : StepName) (cause : Cause) | b2 | b3 | b4 | b5 | b6 | b7
  | s0 | s1 | s2 | s3 | s4 | s5 | s6
  | u0 | u1 | u2 | u3 | u4 | u5 | u6 | u7 | u8 | u9
  | x0 | x1 | x2 | x3 | x4 | x5 | x6 | x7 | x8
  | f0 | f1 | f2 (r : UnitResult) | f3 (v : Bool)
  | i1 | i2 | i3 (acked : Bool) | i4 | i5 | i6 | i6e (j : Nat) (evs : List HostEvent) | i7 | i8 | i9
deriving DecidableEq, Repr

/-- A TouchPoint (R38): its slot, and its raw x and y, which hold ⊥ when the point is not present. -/
structure TouchPoint where
  slot : Nat
  pos : Option (BitVec 12 × BitVec 12)
deriving DecidableEq, Repr

/-- A TouchFrameReport (R38): the finger count and the TouchPoints in slot order. -/
structure Report where
  fc : BitVec 3
  pts : List TouchPoint
deriving DecidableEq, Repr

/-- The device session: the register group of R23, with CFG_SNX and CFG_SNY of R32. -/
structure Session where
  fwVersion : Option (BitVec 16) := none
  width : Option (BitVec 12) := none
  height : Option (BitVec 12) := none
  powerOn : Option Bool := none
  streamingOn : Option Bool := none
  powerRb : Option Bool := none
  streamRb : Option StreamState := none
  cfgSmx : Option (BitVec 16) := none
  cfgSmy : Option (BitVec 16) := none
  cfgRx : Option Bool := none
  cfgRy : Option Bool := none
  cfgXy : Option Bool := none
  cfgIrqMode : Option IrqMode := none
  cfgSnx : Option (BitVec 16) := none
  cfgSny : Option (BitVec 16) := none
deriving DecidableEq, Repr

/-- The resource flags and pin handles of R36. -/
structure Resources where
  pins : Bool := false
  irqCfg : Bool := false
  bus : Bool := false
  host : Bool := false
  pinRst : Option Handle := none
  pinInt : Option Handle := none
deriving DecidableEq, Repr

/-- FAULT_CAUSE (R35): codes 0 and 1; 2..15 are never held. -/
inductive FaultCause where
  | none
  | normalizerDivZero
deriving DecidableEq, Repr

/-- The result codes of R262 that are ever produced. -/
inductive ResultCode where
  | ok
  | transportSend
  | transportRecv
  | protocol
  | config
  | init
  | badState
  | faulted
  | badRequest
  | noneYet
deriving DecidableEq, Repr

/-- The diagnostic codes of R268, in the order of their numbers 1..18. -/
inductive DiagCode where
  | configFail
  | helloRecvFail
  | helloMismatch
  | initFail
  | suspStreamFail
  | suspPowerFail
  | resPowerFail
  | powerRbFail
  | powerRbMismatch
  | resStreamFail
  | streamRbFail
  | streamRbMismatch
  | irqNotPending
  | irqRecvFail
  | noise
  | calib
  | unsolicitedHello
  | fault
deriving DecidableEq, Repr

/-- The info of a diagnostic (R268). -/
inductive DiagInfo where
  | nothing
  | transport (e : Err)
  | bytes (b : List Byte)
  | abort (step : StepName) (cause : Cause)
  | power (read : Bool)
  | stream (read : StreamState)
  | noise (noisy : Bool) (raw : Byte)
  | cause (c : FaultCause)
deriving DecidableEq, Repr

/-- A diagnostic record (R268). -/
structure Diag where
  code : DiagCode
  op : Op
  step : Option StepName
  info : DiagInfo
deriving DecidableEq, Repr

/-- The pins that ATTACH requests by name (R202). -/
inductive PinName where
  | reset
  | int
deriving DecidableEq, Repr

/-- The collaborator primitives of R14 with their arguments. -/
inductive Call where
  | busSend (b : List Byte)
  | busRecv (n : Nat)
  | busOpen
  | busClose
  | wait (ms : Nat)
  | requestPin (name : PinName)
  | releasePin (h : Handle)
  | pulseReset
  | configureInterrupt (mode : IrqMode)
  | releaseInterrupt
  | readAndAck
  | hostRegister (x y : BitVec 16)
  | hostUnregister
  | hostEvent (e : HostEvent)
deriving DecidableEq, Repr

/-- The answer of a collaborator: a draw (R15, R280 to R283). `done` answers the primitives that return nothing. -/
inductive Reply where
  | sent (count : Int)
  | received (count : Int) (bytes : List Byte)
  | opened (ok : Bool)
  | registered (ok : Bool)
  | acked (pending : Bool)
  | pin (h : Option Handle)
  | done
deriving DecidableEq, Repr

/-- A move of another agent (R20, log 1). -/
inductive Input where
  /-- A collaborator answers the outstanding call; `extra` is the time the call took beyond its minimum (R300). -/
  | reply (extra : Nat) (r : Reply)
  /-- The host issues a request (R42). -/
  | request (q : HostReq)
  /-- The GPIO collaborator delivers an assertion of the interrupt line (R280). -/
  | irq
  /-- The reset input RST is asserted (R290): one instantaneous move (log 30). -/
  | rst
  /-- The host reads status-port register `rn`; `draw` is what undefined fields read as (R44). -/
  | portRead (rn : BitVec 5) (draw : BitVec 16)
  /-- The sequencer moves next; at an arbitration `hostFirst` is the arbiter's choice (R66). -/
  | turn (hostFirst : Bool)
deriving DecidableEq, Repr

/-- An event of the trace (R67). -/
inductive Event where
  | call (c : Call) (answer : Reply)
  | diag (d : Diag)
  | respond (code : ResultCode) (value : Option Bool)
deriving DecidableEq, Repr

/-- The registers whose reading at ⊥ is the model fault of R13. -/
inductive RegName where
  | width
  | height
  | cfgSmx
  | cfgSmy
  | cfgRx
  | cfgRy
  | cfgXy
  | cfgIrqMode
  | cfgSnx
  | cfgSny
  | rx
deriving DecidableEq, Repr

/-- What stops the machine. -/
inductive Fault where
  /-- UnwrittenRead(name): "Reading a register that holds ⊥ is a model fault" (R13; also R50, D26 and M16). Raised by
  `readReg` alone, for the steps that read a session register or RX. Safe: no state that meets the invariant raises it,
  and the machine stops instead of taking a value (log 20). -/
  | unwrittenRead (r : RegName)
deriving DecidableEq, Repr

/-- What has no meaning in the model. -/
inductive Refusal where
  /-- An instruction whose arm of `exec` has no meaning yet. Raised by no arm. Safe. -/
  | notModelled (mnemonic : String)
  /-- Bits that the decoder rejects by name (R94). Raised by `step` only; the bits that stand at the block's ports
  always decode. Safe. -/
  | rejected (r : Reject)
deriving DecidableEq, Repr

/-- The state of one TCMT instance. -/
structure State where
  /-- The implementation parameters and the protocol literals (R10). Constant: no step writes it (log 5). -/
  par : Params
  /-- STEP with its locals (R21); CUR_OP is the operation whose label it is. -/
  step : Option Label
  /-- The unit operation that runs and its sub-step label (R21). -/
  unit : Option (UnitOp × TStep)
  /-- The TransactionResult of the unit operation that just returned (R41). -/
  ur : Option UnitResult
  /-- The collaborator call that has not been answered yet (R21). -/
  call : Option Call
  /-- LIFE (R22). -/
  life : Life
  /-- The device session (R23). -/
  ses : Session
  /-- IRQ_EN (R33). -/
  irqEn : Bool
  /-- IRQ_PEND (R34). -/
  irqPend : Bool
  /-- FAULT (R35). -/
  fault : Bool
  /-- FAULT_CAUSE (R35). -/
  faultCause : FaultCause
  /-- The resource flags and pin handles (R36). -/
  res : Resources
  /-- LAST_RESULT (R37). -/
  lastResult : ResultCode
  /-- LAST_REPORT (R38). -/
  lastReport : Option Report
  /-- TX (R39). -/
  tx : Option (List Byte)
  /-- RX (R40). -/
  rx : Option (List Byte)
  /-- HOST_REQ (R42). -/
  hostReq : Option HostReq
  /-- The requests of a host that waits for HOST_REQ (R42, log 8). -/
  hostWait : List HostReq
  /-- The moves of the other agents, oldest first (log 1). -/
  inbox : List Input
  /-- The event trace, oldest first (R67). -/
  trace : List Event
  /-- Time in milliseconds (R300). -/
  clock : Nat
  /-- What the status-port reads returned, oldest first (R44, log 25). -/
  portLog : List (BitVec 5 × BitVec 16)
  /-- How many arbiter choices the free value has made (log 4). -/
  freeCount : Nat
deriving DecidableEq, Repr

/-- The machine after a block reset (R50, R290), with the default parameters and no move of another agent yet. -/
def State.reset : State where
  par := {}
  step := none
  unit := none
  ur := none
  call := none
  life := .cold
  ses := {}
  irqEn := false
  irqPend := false
  fault := false
  faultCause := .none
  res := {}
  lastResult := .noneYet
  lastReport := none
  tx := none
  rx := none
  hostReq := none
  hostWait := []
  inbox := []
  trace := []
  clock := 0
  portLog := []
  freeCount := 0

end Sys2Proof.Machine
end

