-- ==== Sys2Proof/Machine/Operands.lean ====
section
/-! DEFINITION. Every value the block assembles from a frame or a record (30_encoding.md R90), the numeric codes of
its enumerations, and the validity of a configuration record (60_exceptions.md R282). -/

namespace Sys2Proof.Machine

/-! ## Frame bytes -/

/-- Byte `i` of a frame (R11). No rule uses an index outside its frame (R63, log 26). -/
def byteAt (f : List Byte) (i : Nat) : Byte := f.getD i 0

/-- A data byte of a response (R85). -/
def respByte (f : List Byte) : RespByte → Byte
  | .r1 => byteAt f 1
  | .r2 => byteAt f 2
  | .r3 => byteAt f 3

/-! ## Values of transaction responses -/

/-- firmware_version (R131): `(resp[2] << 8) | (resp[3] & 0xF0)`, 16 bits. -/
def fwVersionOf (f : List Byte) : BitVec 16 :=
  ((byteAt f 2).setWidth 16 <<< 8) ||| (byteAt f 3 &&& 0xF0).setWidth 16

/-- WIDTH and HEIGHT (R139, R140): `((resp[3] & 0xF0) << 4) | resp[2]`, 12 bits. -/
def dimensionOf (f : List Byte) : BitVec 12 :=
  ((byteAt f 3 &&& 0xF0).setWidth 12 <<< 4) ||| (byteAt f 2).setWidth 12

/-- The power state (R133): bit PWR_BIT of resp[PWR_READ_BYTE]. -/
def powerOf (p : Params) (f : List Byte) : Bool := (respByte f p.pwrReadByte).getLsbD p.lit.pwrBit

/-- Finger present (R135): resp[2] is not 0. -/
def fingerOf (f : List Byte) : Bool := byteAt f 2 != 0

/-- The streaming state (R137, R138). -/
def streamOf (p : Params) (f : List Byte) : StreamState :=
  let v := respByte f p.pktReadByte
  if v = p.lit.pktOn then .on else if v = p.lit.pktOff then .off else .unrecognised v

/-- What a unit operation makes of the response it received; a write discards it (R130, R142). -/
def unitValue (p : Params) (op : UnitOp) (f : List Byte) : UnitVal :=
  match op with
  | .fwVerRead => .fw (fwVersionOf f)
  | .powerRead => .flag (powerOf p f)
  | .fingerRead => .flag (fingerOf f)
  | .packetRead => .stream (streamOf p f)
  | .widthRead => .dim (dimensionOf f)
  | .heightRead => .dim (dimensionOf f)
  | .powerWrite _ => .unit
  | .packetWrite _ => .unit

/-! ## Report frames -/

/-- finger_count (R161): the low bits of byte 1 under FC_MASK. -/
def fingerCountOf (p : Params) (f : List Byte) : BitVec 3 := (byteAt f 1 &&& p.lit.fcMask).setWidth 3

/-- DecodeSlot (R163): the all-zero triple is empty. -/
def decodeSlot (i : Nat) (b0 b1 b2 : Byte) : TouchPoint :=
  if b0 = 0 ∧ b1 = 0 ∧ b2 = 0 then { slot := i, pos := none }
  else
    { slot := i
      pos := some (((b0 &&& 0x0F).setWidth 12 <<< 8) ||| b2.setWidth 12,
                   ((b0 &&& 0xF0).setWidth 12 <<< 4) ||| b1.setWidth 12) }

/-- Slot `i` of a report frame, at offset `SLOT_BASE + SLOT_STRIDE * i` (R160, R162). -/
def slotOf (p : Params) (f : List Byte) (i : Nat) : TouchPoint :=
  let o := p.lit.slotBase + p.lit.slotStride * i
  decodeSlot i (byteAt f o) (byteAt f (o + 1)) (byteAt f (o + 2))

/-- DecodeReport (R160): no slot is read when the finger count is 0, all N_SLOTS of them when it is not. A report has as
many points as N_SLOTS says, five by default (R164, log 5). -/
def decodeReport (p : Params) (f : List Byte) : Report :=
  { fc := fingerCountOf p f
    pts := (List.range p.lit.nSlots).map fun i =>
      if fingerCountOf p f = 0 then { slot := i, pos := none } else slotOf p f i }

/-- `SLOT(x, y)` of R96: the three bytes of a present slot. -/
def slotBytes (x y : BitVec 12) : Byte × Byte × Byte :=
  (((y >>> 8).setWidth 8 <<< 4) ||| (x >>> 8).setWidth 8, y.setWidth 8, x.setWidth 8)

/-- The noise flag (R243): the whole byte 1 is NOISY_FLAG. -/
def noisyOf (p : Params) (f : List Byte) : Bool := byteAt f 1 == p.lit.noisyFlag

/-- Whether hello bytes are good (R86, R203): all are HELLO_BYTE. DESIGN CHOICE: with a HELLO_LEN other than 4 they are
compared with HELLO_LEN copies of it, where R201's A9 has the four bytes 55 55 55 55 (log 5). -/
def helloGood (p : Params) (f : List Byte) : Bool := f == List.replicate p.lit.helloLen p.lit.helloByte

/-! ## The configuration record -/

/-- A sensor maximum in its 16-bit range (R32, R282). -/
def word16Of : Option Int → Option (BitVec 16)
  | some v => if 0 ≤ v ∧ v ≤ 65535 then some (BitVec.ofInt 16 v) else none
  | none => none

/-- A screen maximum in the range of SCREEN_W (R10, R282), which its 16-bit register holds (R31). -/
def screenMaxOf (p : Params) (v : Option Int) : Option (BitVec 16) :=
  match word16Of v with
  | some w => if w.toNat < 2 ^ p.lit.screenW then some w else none
  | none => none

/-- An integer field that is not required: absent, or in its range (R282, D38). -/
def absentOrInRange (v : Option Int) : Bool := v.isNone || (word16Of v).isSome

/-- The sensor maxima of a record: required and captured when SENSOR_MAX_SOURCE is Config (R32), and in range where
they are present when it is not (R282: "every integer field is in its range"). -/
def sensorOf (p : Params) (c : CfgRecord) : Option (Option (BitVec 16 × BitVec 16)) :=
  match p.sensorMaxSource with
  | .queried => if absentOrInRange c.snx && absentOrInRange c.sny then some none else none
  | .config =>
    match word16Of c.snx, word16Of c.sny with
    | some x, some y => some (some (x, y))
    | _, _ => none

/-- `Valid(cfg)` (R282): the record in register widths, or nothing when it is absent, lacks a required field or
holds an integer out of range. -/
def validate (p : Params) (cfg : Option CfgRecord) : Option ValidCfg := do
  let c ← cfg
  let smx ← screenMaxOf p c.smx
  let smy ← screenMaxOf p c.smy
  let rx ← c.rx
  let ry ← c.ry
  let xy ← c.xy
  let irqMode ← c.irqMode
  let sensor ← sensorOf p c
  return { smx, smy, rx, ry, xy, irqMode, sensor }

/-! ## Numeric codes -/

/-- The 4-bit kind code of a failure class (R260). -/
def FailureClass.code : FailureClass → BitVec 4
  | .transportSend => 1
  | .transportRecv => 2
  | .protocol => 3
  | .configError => 4
  | .initError => 5
  | .softWarning => 6
  | .normalizerDivZero => 7
  | .badRequest => 8

/-- The class of a unit operation's failure (R114, R260): what a diagnostic's transport kind is (R268). -/
def Err.kind : Err → FailureClass
  | .transportSend _ _ => .transportSend
  | .transportRecv _ _ => .transportRecv
  | .protocol _ => .protocol

/-- `code(k)` of R262. -/
def Err.result : Err → ResultCode
  | .transportSend _ _ => .transportSend
  | .transportRecv _ _ => .transportRecv
  | .protocol _ => .protocol

/-- The 4-bit result code (R262). -/
def ResultCode.code : ResultCode → BitVec 4
  | .ok => 0
  | .transportSend => 1
  | .transportRecv => 2
  | .protocol => 3
  | .config => 4
  | .init => 5
  | .badState => 6
  | .faulted => 7
  | .badRequest => 8
  | .noneYet => 15

/-- The diagnostic code (R268). -/
def DiagCode.code : DiagCode → Nat
  | .configFail => 1
  | .helloRecvFail => 2
  | .helloMismatch => 3
  | .initFail => 4
  | .suspStreamFail => 5
  | .suspPowerFail => 6
  | .resPowerFail => 7
  | .powerRbFail => 8
  | .powerRbMismatch => 9
  | .resStreamFail => 10
  | .streamRbFail => 11
  | .streamRbMismatch => 12
  | .irqNotPending => 13
  | .irqRecvFail => 14
  | .noise => 15
  | .calib => 16
  | .unsolicitedHello => 17
  | .fault => 18

/-- The class of a diagnostic (R268, R260). The three event logs and the swallowed false acknowledge have none. -/
def DiagCode.failureClass : DiagCode → Option FailureClass
  | .configFail => some .configError
  | .initFail => some .initError
  | .helloRecvFail | .helloMismatch | .suspStreamFail | .suspPowerFail | .resPowerFail | .powerRbFail
  | .powerRbMismatch | .resStreamFail | .streamRbFail | .streamRbMismatch => some .softWarning
  | .irqRecvFail => some .transportRecv
  | .fault => some .normalizerDivZero
  | .irqNotPending | .noise | .calib | .unsolicitedHello => none

/-- The class of the failure that a result code reports (R260, R262): class 8 is both a request that is not legal and a
reserved one. DESIGN CHOICE: FAULTED has class 7, the fault's, for a request that is refused because of the fault too, for
which R260 names no class (log 31). -/
def ResultCode.failureClass : ResultCode → Option FailureClass
  | .transportSend => some .transportSend
  | .transportRecv => some .transportRecv
  | .protocol => some .protocol
  | .config => some .configError
  | .init => some .initError
  | .faulted => some .normalizerDivZero
  | .badState | .badRequest => some .badRequest
  | .ok | .noneYet => none

/-- FAULT_CAUSE's 4-bit code (R35, R266). -/
def FaultCause.code : FaultCause → BitVec 4
  | .none => 0
  | .normalizerDivZero => 1

/-- LIFE's 3-bit code (R22). -/
def Life.code : Life → BitVec 3
  | .cold => 0
  | .reset => 1
  | .awaitHello => 2
  | .queryInfo => 3
  | .ready => 4
  | .suspended => 5
  | .detached => 6

/-- CUR_OP's 3-bit code (R21). -/
def Op.code : Op → BitVec 3
  | .idle => 0
  | .attach => 1
  | .suspend => 2
  | .resume => 3
  | .detach => 4
  | .fingerQuery => 5
  | .dispatch => 6

/-- The pin name that is passed to `request_pin(name)` (R202). -/
def PinName.text : PinName → String
  | .reset => "reset"
  | .int => "int"

end Sys2Proof.Machine
end

