-- ==== Sys2Proof/Machine/Flags.lean ====
section
/-! DEFINITION. The Boolean state of the block (10_state.md R45): the interrupt enable and latch, the resource and
session flags, the validity flags, and the legality check of a request (44_lifecycle.md R200). -/

namespace Sys2Proof.Machine

/-- An assertion of the interrupt line (R34): it latches while enabled and not faulted, and is discarded otherwise;
further assertions coalesce. It does not read LIFE, which R22 lists it as a reader of (log 29). -/
def State.latchIrq (s : State) : State := { s with irqPend := s.irqPend || (s.irqEn && !s.fault) }

/-- `IRQ_EN <- false; IRQ_PEND <- false` (R33). -/
def State.maskIrq (s : State) : State := { s with irqEn := false, irqPend := false }

/-- An interrupt is pending for the arbiter: the latch is set, and no fault is, because a faulted block accepts only a
DETACH (R35, R224, D16; log 9). -/
def State.dispatchPending (s : State) : Bool := s.irqPend && !s.fault

/-- `IRQ_EN <- true` (R33). -/
def State.unmaskIrq (s : State) : State := { s with irqEn := true }

/-- Legal(op) of R200. DISPATCH has no acceptance check (R240). -/
def Op.legal : Op → Life → Bool
  | .attach, life => life == .cold
  | .suspend, life => life == .ready
  | .resume, life => life == .suspended
  | .fingerQuery, life => life == .ready
  | .detach, _ => true
  | .dispatch, _ => true
  | .idle, _ => true

/-- The verdict of the acceptance check (R200, R271 d): FAULTED before BAD_STATE, `none` for accepted. -/
def State.refusalOf (op : Op) (s : State) : Option ResultCode :=
  if s.fault && op != .detach then some .faulted
  else if op.legal s.life then none
  else some .badState

/-- A TouchPoint's present flag (R38). -/
def TouchPoint.present (p : TouchPoint) : Bool := p.pos.isSome

/-- CFG valid of RN 1 (R44): the configuration registers hold a value. ATTACH step A2 writes all of them at once,
and release clears all of them at once (R31, R51). -/
def Session.cfgValid (r : Session) : Bool := r.cfgSmx.isSome

end Sys2Proof.Machine
end

