-- ==== Sys2Proof/Machine/Ops.lean ====
section
/-! DEFINITION. The shared operations on the state: the program counter (10_state.md R21), the trace (20_memory.md
R67), collaborator calls and their answers (00_scope.md R14, R15), completion, the attach abort, the fault, the
entry into a DISPATCH (60_exceptions.md R264 to R273), session release (R51) and block reset (R290). -/

namespace Sys2Proof.Machine

/-! ## Reading a register -/

/-- Reading a register: a read of ⊥ is the model fault `UnwrittenRead(name)` that the spec names (R13, R50, D26, M16). No
state that meets the invariant reaches it (log 20). -/
def readReg {α : Type} (name : RegName) : Option α → Except Fault α
  | some v => .ok v
  | none => .error (.unwrittenRead name)

/-! ## The program counter -/

/-- The step label without its locals (R21). -/
def Label.name : Label → StepName
  | .a0 _ => .a0 | .a1 _ => .a1 | .a2 _ => .a2 | .a3 => .a3 | .a4 => .a4 | .a5 => .a5 | .a6 => .a6 | .a7 => .a7
  | .a8 => .a8 | .a9 => .a9 | .a10 => .a10 | .a11 _ => .a11 | .a12 => .a12 | .a13 => .a13 | .a14 _ => .a14
  | .a15 => .a15 | .a16 => .a16 | .a17 _ => .a17 | .a18 => .a18 | .a19 => .a19 | .a20 => .a20
  | .b1 _ _ => .b1 | .b2 => .b2 | .b3 => .b3 | .b4 => .b4 | .b5 => .b5 | .b6 => .b6 | .b7 => .b7
  | .s0 => .s0 | .s1 => .s1 | .s2 => .s2 | .s3 => .s3 | .s4 => .s4 | .s5 => .s5 | .s6 => .s6
  | .u0 => .u0 | .u1 => .u1 | .u2 => .u2 | .u3 => .u3 | .u4 => .u4 | .u5 => .u5 | .u6 => .u6 | .u7 => .u7
  | .u8 => .u8 | .u9 => .u9
  | .x0 => .x0 | .x1 => .x1 | .x2 => .x2 | .x3 => .x3 | .x4 => .x4 | .x5 => .x5 | .x6 => .x6 | .x7 => .x7 | .x8 => .x8
  | .f0 => .f0 | .f1 => .f1 | .f2 _ => .f2 | .f3 _ => .f3
  | .i1 => .i1 | .i2 => .i2 | .i3 _ => .i3 | .i4 => .i4 | .i5 => .i5 | .i6 => .i6 | .i6e _ _ => .i6 | .i7 => .i7
  | .i8 => .i8 | .i9 => .i9

/-- The operation that a step label belongs to (R21). -/
def StepName.op : StepName → Op
  | .a0 | .a1 | .a2 | .a3 | .a4 | .a5 | .a6 | .a7 | .a8 | .a9 | .a10 | .a11 | .a12 | .a13 | .a14 | .a15 | .a16 | .a17
  | .a18 | .a19 | .a20 | .b1 | .b2 | .b3 | .b4 | .b5 | .b6 | .b7 => .attach
  | .s0 | .s1 | .s2 | .s3 | .s4 | .s5 | .s6 => .suspend
  | .u0 | .u1 | .u2 | .u3 | .u4 | .u5 | .u6 | .u7 | .u8 | .u9 => .resume
  | .x0 | .x1 | .x2 | .x3 | .x4 | .x5 | .x6 | .x7 | .x8 => .detach
  | .f0 | .f1 | .f2 | .f3 => .fingerQuery
  | .i1 | .i2 | .i3 | .i4 | .i5 | .i6 | .i7 | .i8 | .i9 => .dispatch

/-- CUR_OP (R21). -/
def State.curOp (s : State) : Op :=
  match s.step with
  | none => .idle
  | some l => l.name.op

/-- STEP (R21). -/
def State.stepName (s : State) : Option StepName := s.step.map Label.name

/-- SUB (R21): the unit operation's sub-step, or `E<j>` of DISPATCH step I6. The plain `receive` of A9 and I4, to which
R111 gives no sub-step, has none (log 11). -/
def State.sub (s : State) : Option Sub :=
  match s.unit, s.step with
  | some (_, t), _ => some (.t t)
  | none, some (.i6e j _) => some (.e j)
  | _, _ => none

/-- BUSY (R43): true exactly when CUR_OP is not IDLE. -/
def State.busy (s : State) : Bool := s.curOp != .idle

/-- The sequencer can take a new operation: no step, no unit operation, no outstanding call. -/
def State.atRest (s : State) : Bool := s.step.isNone && s.unit.isNone && s.call.isNone

/-- Going to a step label; the result of the step before it is spent (R21, R41). -/
def State.goto (l : Label) (s : State) : State := { s with step := some l, ur := none }

/-! ## The trace -/

/-- Recording one event, after all earlier ones (R67). -/
def State.emit (e : Event) (s : State) : State := { s with trace := s.trace ++ [e] }

/-- `Diag(code, info)` (R268): the record names CUR_OP and STEP; no register changes. -/
def State.diag (code : DiagCode) (info : DiagInfo) (s : State) : State :=
  s.emit (.diag { code, op := s.curOp, step := s.stepName, info })

/-! ## Collaborator calls -/

/-- Calling a collaborator: the step stays at its label until the answer (R21, R283). -/
def State.issue (c : Call) (s : State) : State := { s with call := some c }

/-- The least time a call takes (R300): a wait its milliseconds, the reset pulse its two phases (R280). -/
def Call.minTime (p : Params) : Call → Nat
  | .wait ms => ms
  | .pulseReset => p.tRstLowMs + p.tRstHighMs
  | _ => 0

/-- The address the bus collaborator is asked for at `BusOpen` (R74, R281, log 18). -/
def Call.busAddress : Call → Option Nat
  | .busOpen => some Config.busAddr
  | _ => none

/-- Whether an answer is one that the called primitive can give (R14, R281): when a receive reports the requested
count, at least that many bytes come with it. -/
def Call.fits (c : Call) (r : Reply) : Bool :=
  match c with
  | .busSend _ => match r with | .sent _ => true | _ => false
  | .busRecv n => match r with | .received count b => !(count == (n : Int)) || decide (n ≤ b.length) | _ => false
  | .busOpen => match r with | .opened _ => true | _ => false
  | .hostRegister _ _ => match r with | .registered _ => true | _ => false
  | .readAndAck => match r with | .acked _ => true | _ => false
  | .requestPin _ => match r with | .pin _ => true | _ => false
  | .busClose | .wait _ | .releasePin _ | .pulseReset | .configureInterrupt _ | .releaseInterrupt | .hostUnregister
  | .hostEvent _ => match r with | .done => true | _ => false

/-- The answer as the trace records it: of a receive with the requested count, the bytes of the frame (R67, R111). -/
def Call.record : Call → Reply → Reply
  | .busRecv n, .received c b => if c = (n : Int) then .received c (b.take n) else .received c b
  | _, r => r

/-- The answer ends the call: time passes (R300) and the event is recorded (R67). A call that a block reset abandons
before its answer is no event (log 19). -/
def State.answered (c : Call) (extra : Nat) (r : Reply) (s : State) : State :=
  { s with
    call := none
    clock := s.clock + c.minTime s.par + extra
    trace := s.trace ++ [.call c (c.record r)] }

/-! ## Completion, abort, fault, interrupt entry -/

/-- `end(r, v)` (R21, R37): IDLE, LAST_RESULT, and `Respond` when the operation is a host request. It is also the
return from a DISPATCH (R273), which restores nothing. -/
def State.finish (r : ResultCode) (v : Option Bool) (s : State) : State :=
  let t := if s.curOp = .dispatch then s else s.emit (.respond r v)
  { t with step := none, ur := none, lastResult := r }

/-- `abort(c)` at a step of ATTACH (R201, R207): the entry of the abort path. -/
def State.abort (at_ : StepName) (c : Cause) (s : State) : State := s.goto (.b1 at_ c)

/-- FAULT(reason) (R266): the sticky fault and its cause. -/
def State.raiseFault (c : FaultCause) (s : State) : State := { s with fault := true, faultCause := c }

/-- The entry into a DISPATCH (R66, R272): CUR_OP and STEP; nothing is saved and no mask changes. -/
def State.enterDispatch (s : State) : State := s.goto .i1

/-- Step 0 of a host request (R200): the acceptance check, then step 1. -/
def State.accept (op : Op) (first : Label) (s : State) : State :=
  match s.refusalOf op with
  | some r => s.finish r none
  | none => s.goto first

/-- The arbiter takes a request (R66, R200): RX is cleared and the operation stands at its step 0. -/
def State.takeRequest (l : Label) (s : State) : State := ({ s with rx := none }).goto l

/-- The whole of a reserved request code, one atomic action (R200, log 7). -/
def State.rejectReserved (s : State) : State :=
  { (({ s with rx := none }).emit (.respond .badRequest none)) with lastResult := .badRequest }

/-- The host issues a request (R42): it stands in HOST_REQ, or the host waits. -/
def State.postRequest (q : HostReq) (s : State) : State :=
  match s.hostReq, s.hostWait with
  | none, [] => { s with hostReq := some q }
  | _, w => { s with hostWait := w ++ [q] }

/-! ## Session release and block reset -/

/-- Session release (R51): every session register, LAST_REPORT and the pin handles hold ⊥ (log 12). -/
def State.releaseSession (s : State) : State :=
  { s with ses := {}, lastReport := none, res := { s.res with pinRst := none, pinInt := none } }

/-- Block reset (R290): every register at its value of R50, an operation in flight abandoned, nothing released.
The trace, the time, the parameters and the other agents' moves are not registers of the block, and the call that it
abandons leaves no event (log 19). -/
def State.blockReset (s : State) : State :=
  { State.reset with
    par := s.par, hostWait := s.hostWait, inbox := s.inbox, trace := s.trace, clock := s.clock,
    portLog := s.portLog, freeCount := s.freeCount }

/-! ## The moves of the other agents -/

/-- A move that is not the sequencer's and not an answer to it (R20). -/
def Input.isAsync : Input → Bool
  | .request _ => true
  | .irq => true
  | .rst => true
  | .portRead _ _ => true
  | .reply _ _ => false
  | .turn _ => false

/-- Another agent moves next. -/
def State.asyncNext (s : State) : Bool :=
  match s.inbox with
  | i :: _ => i.isAsync
  | [] => false

/-- The sequencer takes the turn it is given, if the next move is one. -/
def State.popTurn (s : State) : State :=
  match s.inbox with
  | .turn _ :: rest => { s with inbox := rest }
  | _ => s

/-- The arbiter (R66): which pending operation starts. With both pending, the choice is the turn's, or else the
free value's, which then counts the choice. A faulted block starts no DISPATCH (log 9). -/
def State.arbitrate (s : State) : Bool × State :=
  match s.hostReq, s.dispatchPending with
  | none, _ => (false, s)
  | some _, false => (true, s)
  | some _, true =>
    match s.inbox with
    | .turn hostFirst :: _ => (hostFirst, s)
    | _ => (Config.arbiterFree s.freeCount, { s with freeCount := s.freeCount + 1 })

end Sys2Proof.Machine
end

