-- ==== Sys2Proof/Machine/Report.lean ====
section
/-! DEFINITION. The coordinate normalizer (43_normalizer.md R180 to R187) and the events of a report
(42_report_decoder.md R166). -/

namespace Sys2Proof.Machine

/-- `sensor_max_x` (R32). -/
def State.sensorMaxX (s : State) : Except Fault Nat :=
  match s.par.sensorMaxSource with
  | .queried => (readReg .width s.ses.width).map BitVec.toNat
  | .config => (readReg .cfgSnx s.ses.cfgSnx).map BitVec.toNat

/-- `sensor_max_y` (R32). -/
def State.sensorMaxY (s : State) : Except Fault Nat :=
  match s.par.sensorMaxSource with
  | .queried => (readReg .height s.ses.height).map BitVec.toNat
  | .config => (readReg .cfgSny s.ses.cfgSny).map BitVec.toNat

/-- Stage 1 (R181): the exact product, then the truncating division. -/
def scale (v screenMax sensorMax : Nat) : Nat := v * screenMax / sensorMax

/-- Stage 2 (R182): exact signed subtraction, no clamp. -/
def revert (flag : Bool) (screenMax : Nat) (v : Int) : Int := if flag then (screenMax : Int) - v else v

/-- Stage 3 (R183). -/
def exchange (flag : Bool) (p : Int × Int) : Int × Int := if flag then (p.2, p.1) else p

/-- The three stages in their fixed order (R180, R184), on numbers. -/
def normalizePoint (smx smy nx ny : Nat) (fx fy fxy : Bool) (x y : Nat) : Int × Int :=
  exchange fxy (revert fx smx (scale x smx nx : Nat), revert fy smy (scale y smy ny : Nat))

/-- The outcome of `Normalize` and of `ReportEvents`: a value, or FAULT of R186. -/
inductive Normal (α : Type) where
  | ok (v : α)
  | divZero

/-- `Normalize(x, y)` (R180): the zero check of both axes comes first (R186, R271 e). -/
def State.normalize (x y : Nat) (s : State) : Except Fault (Normal (Int × Int)) := do
  let nx ← s.sensorMaxX
  let ny ← s.sensorMaxY
  if nx = 0 ∨ ny = 0 then return .divZero
  let smx ← readReg .cfgSmx s.ses.cfgSmx
  let smy ← readReg .cfgSmy s.ses.cfgSmy
  let fx ← readReg .cfgRx s.ses.cfgRx
  let fy ← readReg .cfgRy s.ses.cfgRy
  let fxy ← readReg .cfgXy s.ses.cfgXy
  return .ok (normalizePoint smx.toNat smy.toNat nx ny fx fy fxy x y)

/-- The events of the present points, in slot order (R166): of every point the report has (log 5). -/
def State.pointEvents (s : State) : List TouchPoint → Except Fault (Normal (List HostEvent))
  | [] => .ok (.ok [])
  | p :: ps =>
    match p.pos with
    | none => s.pointEvents ps
    | some (x, y) => do
      match ← s.normalize x.toNat y.toNat with
      | .divZero => return .divZero
      | .ok (px, py) =>
        match ← s.pointEvents ps with
        | .divZero => return .divZero
        | .ok evs => return .ok (.position px py :: .touch true :: evs)

/-- `ReportEvents(rep)` (R166): one release for a finger count of 0, else the points and a sync. -/
def State.reportEvents (rep : Report) (s : State) : Except Fault (Normal (List HostEvent)) :=
  if rep.fc = 0 then
    .ok (.ok (if s.par.syncAfterRelease then [.touch false, .sync] else [.touch false]))
  else do
    match ← s.pointEvents rep.pts with
    | .divZero => return .divZero
    | .ok evs => return .ok (evs ++ [.sync])

end Sys2Proof.Machine
end

