-- ==== Sys2Proof/Machine/Dispatcher.lean ====
section
/-! DEFINITION. The interrupt dispatcher: what the steps of DISPATCH do (45_dispatcher.md R240 to R249). The step
list itself stands in Steps.lean. -/

namespace Sys2Proof.Machine

/-- I3: a false acknowledge ends the DISPATCH before any bus traffic, when it gates the receive (R240). -/
def State.checkAck (acked : Bool) (s : State) : State :=
  if !acked && s.par.ackGatesReceive then (s.diag .irqNotPending .nothing).finish .ok none else s.goto .i4

/-- I4 on its answer: a failed receive is swallowed (R246), a good one writes RX (R111). -/
def State.frameReceived (count : Int) (bytes : List Byte) (s : State) : State :=
  if count ≠ (s.par.lit.rptLen : Int) then
    (s.diag .irqRecvFail (.transport (.transportRecv s.par.lit.rptLen count))).finish .ok none
  else ({ s with rx := some (bytes.take s.par.lit.rptLen) }).goto .i5

/-- I5: the case on the opcode, byte 0 of RX (R240, R241). -/
def State.routeOpcode (s : State) : Except Fault State :=
  (readReg .rx s.rx).map fun f =>
    if byteAt f 0 = s.par.lit.opReport then s.goto .i6
    else if byteAt f 0 = s.par.lit.opNoise then s.goto .i7
    else if byteAt f 0 = s.par.lit.opCalib then s.goto .i8
    else if byteAt f 0 = s.par.lit.opHello then s.goto .i9
    else s.finish .ok none

/-- I6 on a division by zero: FAULT, one diagnostic, no event of the frame (R242, R266). -/
def State.faultReport (s : State) : State :=
  ((s.raiseFault .normalizerDivZero).diag .fault (.cause .normalizerDivZero)).finish .faulted none

/-- I6 (R242): LAST_REPORT is written first; the events are all computed before any is emitted. -/
def State.beginReport (s : State) : Except Fault State :=
  (readReg .rx s.rx).bind fun f =>
    let t : State := { s with lastReport := some (decodeReport s.par f) }
    (t.reportEvents (decodeReport s.par f)).map fun e =>
      match e with
      | .divZero => t.faultReport
      | .ok evs => t.goto (.i6e 1 evs)

/-- I6, sub-step `E<j>`: one host-input primitive (R242). Every report has at least one event (R166). -/
def State.emitEvents (evs : List HostEvent) (s : State) : State :=
  match evs with
  | [] => s.finish .ok none
  | e :: _ => s.issue (.hostEvent e)

/-- I6, sub-step `E<j>` on its answer: the next event at `E<j+1>`, or `end(OK)` after the last (R21, R242). -/
def State.eventEmitted (j : Nat) (evs : List HostEvent) (s : State) : State :=
  match evs.tail with
  | [] => s.finish .ok none
  | e :: rest => s.goto (.i6e (j + 1) (e :: rest))

/-- I7 (R243): one diagnostic. -/
def State.logNoise (s : State) : Except Fault State :=
  (readReg .rx s.rx).map fun f => (s.diag .noise (.noise (noisyOf s.par f) (byteAt f 1))).finish .ok none

end Sys2Proof.Machine
end

