-- ==== Sys2Proof/Machine/Transport.lean ====
section
/-! DEFINITION. The bus transport and the message catalog (40_transport.md R110 to R115, 41_message_catalog.md R130
to R142): one unit operation, sub-step by sub-step T1 to T4. A write is T1 alone unless WRITE_EXPECTS_RESPONSE. -/

namespace Sys2Proof.Machine

/-- The unit operation returns to its caller (R114: unchanged). -/
def State.unitReturn (r : UnitResult) (s : State) : State := { s with unit := none, ur := some r }

/-- The unit operation goes to a sub-step. -/
def State.unitGoto (op : UnitOp) (t : TStep) (s : State) : State := { s with unit := some (op, t) }

/-- Entering a unit operation at T1. -/
def State.unitEnter (op : UnitOp) (s : State) : State := { s with unit := some (op, .t1), ur := none }

/-- T1 before the answer: `TX <- b`, `BusSend(b)` (R110). -/
def State.sendBegin (op : UnitOp) (s : State) : State :=
  ({ s with tx := some (op.frame s.par) }).issue (.busSend (op.frame s.par))

/-- T1 after the answer: `TX <- ⊥`, the count must be CMD_LEN (R110), and a write is done (R142). CMD_LEN is the frame's
length, 4; in an instance with another CMD_LEN the count is held to CMD_LEN and not to the frame (log 5). -/
def State.sendEnd (op : UnitOp) (count : Int) (s : State) : State :=
  let t : State := { s with tx := none }
  if count ≠ (s.par.lit.cmdLen : Int) then t.unitReturn (.err (.transportSend s.par.lit.cmdLen count))
  else if op.isWrite && !s.par.writeExpectsResponse then t.unitReturn (.ok .unit)
  else t.unitGoto op .t2

/-- T3 after the answer: the count must be the requested length, CMD_LEN (log 5), and only then is RX written (R111,
log 6). -/
def State.recvEnd (op : UnitOp) (count : Int) (bytes : List Byte) (s : State) : State :=
  if count ≠ (s.par.lit.cmdLen : Int) then s.unitReturn (.err (.transportRecv s.par.lit.cmdLen count))
  else ({ s with rx := some (bytes.take s.par.lit.cmdLen) }).unitGoto op .t4

/-- T4: byte 0 of RX must be the response marker (R112); then the catalog rule's value (R130). -/
def State.checkMarker (op : UnitOp) (s : State) : Except Fault State :=
  (readReg .rx s.rx).map fun f =>
    if byteAt f 0 ≠ s.par.lit.mkResponse then s.unitReturn (.err (.protocol (byteAt f 0)))
    else s.unitReturn (.ok (unitValue s.par op f))

/-- A unit operation's next move while no call is outstanding (R112). -/
def State.unitStep (op : UnitOp) (t : TStep) (s : State) : Except Fault State :=
  match t with
  | .t1 => .ok (s.sendBegin op)
  | .t2 => .ok (s.issue (.wait s.par.tSettleMs))
  | .t3 => .ok (s.issue (.busRecv s.par.lit.cmdLen))
  | .t4 => s.checkMarker op

/-- A unit operation's move on an answer (R110 to R112). An answer of another call has no effect. -/
def State.unitAnswer (op : UnitOp) (t : TStep) (r : Reply) (s : State) : State :=
  match t, r with
  | .t1, .sent count => s.sendEnd op count
  | .t2, .done => s.unitGoto op .t3
  | .t3, .received count bytes => s.recvEnd op count bytes
  | _, _ => s

end Sys2Proof.Machine
end

