-- ==== Sys2Proof/Machine/Lifecycle.lean ====
section
/-! DEFINITION. What the steps of the lifecycle do (44_lifecycle.md R200 to R222), one operation for each step that is
more than one register write or one primitive. The step lists themselves stand in Steps.lean. -/

namespace Sys2Proof.Machine

/-! ## ATTACH (R201 to R206) and its abort path (R207) -/

/-- A2: the configuration registers (R31, R77). -/
def State.captureConfig (c : ValidCfg) (s : State) : State :=
  { s with
    ses :=
      { s.ses with
        cfgSmx := some c.smx, cfgSmy := some c.smy, cfgRx := some c.rx, cfgRy := some c.ry, cfgXy := some c.xy,
        cfgIrqMode := some c.irqMode
        cfgSnx := (c.sensor.map Prod.fst).or s.ses.cfgSnx
        cfgSny := (c.sensor.map Prod.snd).or s.ses.cfgSny } }

/-- A1: an invalid record completes the request with CONFIG (R201, R294). -/
def State.checkConfig (cfg : Option CfgRecord) (s : State) : State :=
  match validate s.par cfg with
  | none => (s.diag .configFail .nothing).finish .config none
  | some c => s.goto (.a2 c)

/-- A5: the interrupt mode of the record is passed on (R202). -/
def State.configureBegin (s : State) : Except Fault State :=
  (readReg .cfgIrqMode s.ses.cfgIrqMode).map fun m => s.issue (.configureInterrupt m)

/-- A18: the bounds are the configured maxima, never swapped (R205). -/
def State.registerBegin (s : State) : Except Fault State :=
  (readReg .cfgSmx s.ses.cfgSmx).bind fun x =>
    (readReg .cfgSmy s.ses.cfgSmy).map fun y => s.issue (.hostRegister x y)

/-- A3 on its answer: no handle aborts (R202). -/
def State.resetPinAnswered (h : Option Handle) (s : State) : State :=
  match h with
  | none => s.abort .a3 .pin
  | some h => ({ s with res := { s.res with pinRst := some h } }).goto .a4

/-- A4 on its answer: no handle aborts, the second handle completes the pins (R202). -/
def State.intPinAnswered (h : Option Handle) (s : State) : State :=
  match h with
  | none => s.abort .a4 .pin
  | some h => ({ s with res := { s.res with pinInt := some h, pins := true } }).goto .a5

/-- A6 on its answer (R202). -/
def State.busAnswered (opened : Bool) (s : State) : State :=
  if opened then ({ s with res := { s.res with bus := true } }).goto .a7 else s.abort .a6 .bus

/-- A18 on its answer (R205). -/
def State.hostAnswered (registered : Bool) (s : State) : State :=
  if registered then ({ s with res := { s.res with host := true } }).goto .a19 else s.abort .a18 .host

/-- A10 as its read returns (R204): a failure aborts. Here and below, a value that the step's read never returns has no
effect (log 20). -/
def State.versionReturned (r : UnitResult) (s : State) : State :=
  match r with
  | .ok (.fw v) => s.goto (.a11 v)
  | .ok _ => s
  | .err e => s.abort .a10 (.transport e)

/-- A13 and A16 as their reads return (R204): a failure aborts. -/
def State.dimensionReturned (at_ : StepName) (next : BitVec 12 → Label) (r : UnitResult) (s : State) : State :=
  match r with
  | .ok (.dim v) => s.goto (next v)
  | .ok _ => s
  | .err e => s.abort at_ (.transport e)

/-- A release step whose resource is not held executes no primitive (R207, R218). -/
def State.releaseBegin (held : Bool) (c : Call) (next : Label) (s : State) : State :=
  if held then s.issue c else s.goto next

/-- The last release step, B6 and X7: the session goes with it (R51). -/
def State.lastReleaseBegin (next : Label) (s : State) : State :=
  match s.res.pinRst with
  | some h => s.issue (.releasePin h)
  | none => s.releaseSession.goto next

/-- B5 and X6: the interrupt pin. -/
def State.intReleaseBegin (next : Label) (s : State) : State :=
  match s.res.pinInt with
  | some h => s.issue (.releasePin h)
  | none => s.goto next

/-- `RES_BUS <- false` (B2, X3). -/
def State.busReleased (s : State) : State := { s with res := { s.res with bus := false } }

/-- `RES_IRQCFG <- false` (B3, X4). -/
def State.irqCfgReleased (s : State) : State := { s with res := { s.res with irqCfg := false } }

/-- `RES_HOST <- false` (B4, X5). -/
def State.hostReleased (s : State) : State := { s with res := { s.res with host := false } }

/-- `PIN_INT <- ⊥` (B5, X6). -/
def State.pinIntReleased (s : State) : State := { s with res := { s.res with pinInt := none } }

/-- `PIN_RST <- ⊥; RES_PINS <- false` and the session release (B6, X7). -/
def State.pinRstReleased (s : State) : State :=
  ({ s with res := { s.res with pinRst := none, pins := false } }).releaseSession

/-- A9 on a received hello (R203): wrong bytes are a SoftWarning. -/
def State.helloReceived (bytes : List Byte) (s : State) : State :=
  let f := bytes.take s.par.lit.helloLen
  let t : State := { s with rx := some f }
  (if helloGood s.par f then t else t.diag .helloMismatch (.bytes f)).goto .a10

/-- A9 on a receive whose count is wrong (R203, D19). -/
def State.helloFailed (count : Int) (s : State) : State :=
  let e := Err.transportRecv s.par.lit.helloLen count
  if s.par.helloRecvFatal then s.abort .a9 (.transport e)
  else (s.diag .helloRecvFail (.transport e)).goto .a10

/-- A9 on its answer (R203). -/
def State.helloAnswered (count : Int) (bytes : List Byte) (s : State) : State :=
  if count ≠ (s.par.lit.helloLen : Int) then s.helloFailed count else s.helloReceived bytes

/-! ## SUSPEND (R210) and RESUME (R214, R215) -/

/-- `STREAMING_ON <- b` (S2, U4). -/
def State.streamingSet (b : Bool) (s : State) : State := { s with ses := { s.ses with streamingOn := some b } }

/-- `POWER_ON <- b` (S4, U1). -/
def State.powerSet (b : Bool) (s : State) : State := { s with ses := { s.ses with powerOn := some b } }

/-- A write of SUSPEND or RESUME as it returns: its register on Ok, a warning on a failure, and on to the next step
either way (R210, R214, D24). -/
def State.writeReturned (s : State) (ok : State) (warning : DiagCode) (next : Label) (r : UnitResult) : State :=
  match r with
  | .ok _ => ok.goto next
  | .err e => (s.diag warning (.transport e)).goto next

/-- U3: the read-back of the power state, compared with the state RESUME commanded (R215). -/
def State.powerReadBack (v : Bool) (s : State) : State :=
  let t : State := { s with ses := { s.ses with powerRb := some v } }
  if v then t else t.diag .powerRbMismatch (.power v)

/-- U6: the read-back of the streaming state; only On matches (R215). -/
def State.streamReadBack (v : StreamState) (s : State) : State :=
  let t : State := { s with ses := { s.ses with streamRb := some v } }
  if v = .on then t else t.diag .streamRbMismatch (.stream v)

/-- U3 as its read-back returns (R214): a failure is a warning. -/
def State.powerReturned (r : UnitResult) (s : State) : State :=
  match r with
  | .ok (.flag v) => (s.powerReadBack v).goto .u4
  | .ok _ => s
  | .err e => (s.diag .powerRbFail (.transport e)).goto .u4

/-- U6 as its read-back returns (R214): a failure is a warning. -/
def State.streamReturned (r : UnitResult) (s : State) : State :=
  match r with
  | .ok (.stream v) => (s.streamReadBack v).goto .u7
  | .ok _ => s
  | .err e => (s.diag .streamRbFail (.transport e)).goto .u7

/-! ## FINGER_QUERY (R222) -/

/-- F2: a failure is the result code of the request. -/
def State.fingerResult (r : UnitResult) (s : State) : State :=
  match r with
  | .ok (.flag v) => s.goto (.f3 v)
  | .ok _ => s
  | .err e => s.finish e.result none

end Sys2Proof.Machine
end

