-- ==== Sys2Proof/Machine/Steps.lean ====
section
/-! DEFINITION. The step lists of the block, one arm for each step label (10_state.md R21): ATTACH and its abort path
(44_lifecycle.md R201, R207), SUSPEND (R210), RESUME (R214), DETACH (R218), FINGER_QUERY (R222) and DISPATCH
(45_dispatcher.md R240). What a step does before its primitive stands in `labelBegin`, what depends on the answer in
`labelAnswer`, what depends on the result of its unit operation in `labelReturn`. -/

namespace Sys2Proof.Machine

/-- The move at a step label that stands at its start. -/
def labelBegin (l : Label) (s : State) : Except Fault State :=
  match l with
  | .a0 cfg => .ok (s.accept .attach (.a1 cfg))
  | .a1 cfg => .ok (s.checkConfig cfg)
  | .a2 c => .ok ((s.captureConfig c).goto .a3)
  | .a3 => .ok (s.issue (.requestPin .reset))
  | .a4 => .ok (s.issue (.requestPin .int))
  | .a5 => s.configureBegin
  | .a6 => .ok (s.issue .busOpen)
  | .a7 => .ok (({ s with life := .reset }).issue .pulseReset)
  | .a8 => .ok (s.issue (.wait s.par.tHelloWaitMs))
  | .a9 => .ok (({ s with life := .awaitHello }).issue (.busRecv s.par.lit.helloLen))
  | .a10 => .ok (({ s with life := .queryInfo }).unitEnter .fwVerRead)
  | .a11 v => .ok (({ s with ses := { s.ses with fwVersion := some v } }).goto .a12)
  | .a12 => .ok (s.issue (.wait s.par.tQGapMs))
  | .a13 => .ok (s.unitEnter .widthRead)
  | .a14 v => .ok (({ s with ses := { s.ses with width := some v } }).goto .a15)
  | .a15 => .ok (s.issue (.wait s.par.tQGapMs))
  | .a16 => .ok (s.unitEnter .heightRead)
  | .a17 v => .ok (({ s with ses := { s.ses with height := some v } }).goto .a18)
  | .a18 => s.registerBegin
  | .a19 => .ok (s.unmaskIrq.goto .a20)
  | .a20 => .ok (({ s with life := .ready }).finish .ok none)
  | .b1 step cause => .ok ((s.maskIrq.diag .initFail (.abort step cause)).goto .b2)
  | .b2 => .ok (s.releaseBegin s.res.bus .busClose .b3)
  | .b3 => .ok (s.releaseBegin s.res.irqCfg .releaseInterrupt .b4)
  | .b4 => .ok (s.releaseBegin s.res.host .hostUnregister .b5)
  | .b5 => .ok (s.intReleaseBegin .b6)
  | .b6 => .ok (s.lastReleaseBegin .b7)
  | .b7 => .ok (({ s with life := .detached }).finish .init none)
  | .s0 => .ok (s.accept .suspend .s1)
  | .s1 => .ok (s.maskIrq.goto .s2)
  | .s2 => .ok (s.unitEnter (.packetWrite false))
  | .s3 => .ok (s.issue (.wait s.par.tSuspGapMs))
  | .s4 => .ok (s.unitEnter (.powerWrite false))
  | .s5 => .ok (({ s with life := .suspended }).goto .s6)
  | .s6 => .ok (s.finish .ok none)
  | .u0 => .ok (s.accept .resume .u1)
  | .u1 => .ok (s.unitEnter (.powerWrite true))
  | .u2 => .ok (s.issue (.wait s.par.tResumeMs))
  | .u3 => .ok (s.unitEnter .powerRead)
  | .u4 => .ok (s.unitEnter (.packetWrite true))
  | .u5 => .ok (s.issue (.wait s.par.tResumeMs))
  | .u6 => .ok (s.unitEnter .packetRead)
  | .u7 => .ok (s.unmaskIrq.goto .u8)
  | .u8 => .ok (({ s with life := .ready }).goto .u9)
  | .u9 => .ok (s.finish .ok none)
  | .x0 => .ok (s.accept .detach .x1)
  | .x1 => .ok (if s.life = .detached then s.finish .ok none else s.goto .x2)
  | .x2 => .ok (s.maskIrq.goto .x3)
  | .x3 => .ok (s.releaseBegin s.res.bus .busClose .x4)
  | .x4 => .ok (s.releaseBegin s.res.irqCfg .releaseInterrupt .x5)
  | .x5 => .ok (s.releaseBegin s.res.host .hostUnregister .x6)
  | .x6 => .ok (s.intReleaseBegin .x7)
  | .x7 => .ok (s.lastReleaseBegin .x8)
  | .x8 => .ok (({ s with life := .detached }).finish .ok none)
  | .f0 => .ok (s.accept .fingerQuery .f1)
  | .f1 => .ok (s.unitEnter .fingerRead)
  | .f2 r => .ok (s.fingerResult r)
  | .f3 v => .ok (s.finish .ok (some v))
  | .i1 => .ok (({ s with irqPend := false, rx := none }).goto .i2)
  | .i2 => .ok (s.issue .readAndAck)
  | .i3 acked => .ok (s.checkAck acked)
  | .i4 => .ok (s.issue (.busRecv s.par.lit.rptLen))
  | .i5 => s.routeOpcode
  | .i6 => s.beginReport
  | .i6e _ evs => .ok (s.emitEvents evs)
  | .i7 => s.logNoise
  | .i8 => .ok ((s.diag .calib .nothing).finish .ok none)
  | .i9 => .ok ((s.diag .unsolicitedHello .nothing).finish .ok none)

/-! ## Answers: what each kind of primitive is answered with (R14). Another answer has no effect. -/

/-- The answer of a primitive that returns nothing. -/
def Reply.onDone (r : Reply) (s next : State) : State :=
  match r with
  | .done => next
  | _ => s

/-- The answer of `GpioRequestPin`. -/
def Reply.onPin (r : Reply) (s : State) (next : Option Handle → State) : State :=
  match r with
  | .pin h => next h
  | _ => s

/-- The answer of `BusOpen`. -/
def Reply.onOpened (r : Reply) (s : State) (next : Bool → State) : State :=
  match r with
  | .opened ok => next ok
  | _ => s

/-- The answer of `HostRegister`. -/
def Reply.onRegistered (r : Reply) (s : State) (next : Bool → State) : State :=
  match r with
  | .registered ok => next ok
  | _ => s

/-- The answer of `GpioReadAndAck`. -/
def Reply.onAcked (r : Reply) (s : State) (next : Bool → State) : State :=
  match r with
  | .acked a => next a
  | _ => s

/-- The answer of `BusRecv`. -/
def Reply.onReceived (r : Reply) (s : State) (next : Int → List Byte → State) : State :=
  match r with
  | .received count bytes => next count bytes
  | _ => s

/-- The move at a step label whose collaborator answered. The steps without a primitive have none. -/
def labelAnswer (l : Label) (r : Reply) (s : State) : State :=
  match l with
  | .a3 => r.onPin s fun h => s.resetPinAnswered h
  | .a4 => r.onPin s fun h => s.intPinAnswered h
  | .a5 => r.onDone s (({ s with res := { s.res with irqCfg := true } }).goto .a6)
  | .a6 => r.onOpened s fun ok => s.busAnswered ok
  | .a7 => r.onDone s (s.goto .a8)
  | .a8 => r.onDone s (s.goto .a9)
  | .a9 => r.onReceived s fun count bytes => s.helloAnswered count bytes
  | .a12 => r.onDone s (s.goto .a13)
  | .a15 => r.onDone s (s.goto .a16)
  | .a18 => r.onRegistered s fun ok => s.hostAnswered ok
  | .b2 => r.onDone s (s.busReleased.goto .b3)
  | .b3 => r.onDone s (s.irqCfgReleased.goto .b4)
  | .b4 => r.onDone s (s.hostReleased.goto .b5)
  | .b5 => r.onDone s (s.pinIntReleased.goto .b6)
  | .b6 => r.onDone s (s.pinRstReleased.goto .b7)
  | .s3 => r.onDone s (s.goto .s4)
  | .u2 => r.onDone s (s.goto .u3)
  | .u5 => r.onDone s (s.goto .u6)
  | .x3 => r.onDone s (s.busReleased.goto .x4)
  | .x4 => r.onDone s (s.irqCfgReleased.goto .x5)
  | .x5 => r.onDone s (s.hostReleased.goto .x6)
  | .x6 => r.onDone s (s.pinIntReleased.goto .x7)
  | .x7 => r.onDone s (s.pinRstReleased.goto .x8)
  | .i2 => r.onAcked s fun a => s.goto (.i3 a)
  | .i4 => r.onReceived s fun count bytes => s.frameReceived count bytes
  | .i6e j evs => r.onDone s (s.eventEmitted j evs)
  | .a0 _ | .a1 _ | .a2 _ | .a10 | .a11 _ | .a13 | .a14 _ | .a16 | .a17 _ | .a19 | .a20 | .b1 _ _ | .b7 => s
  | .s0 | .s1 | .s2 | .s4 | .s5 | .s6 | .u0 | .u1 | .u3 | .u4 | .u6 | .u7 | .u8 | .u9 => s
  | .x0 | .x1 | .x2 | .x8 | .f0 | .f1 | .f2 _ | .f3 _ | .i1 | .i3 _ | .i5 | .i6 | .i7 | .i8 | .i9 => s

/-- The move at a step label whose unit operation returned. The steps that call none go on as they are. -/
def labelReturn (l : Label) (r : UnitResult) (s : State) : Except Fault State :=
  match l with
  | .a10 => .ok (s.versionReturned r)
  | .a13 => .ok (s.dimensionReturned .a13 .a14 r)
  | .a16 => .ok (s.dimensionReturned .a16 .a17 r)
  | .s2 => .ok (s.writeReturned (s.streamingSet false) .suspStreamFail .s3 r)
  | .s4 => .ok (s.writeReturned (s.powerSet false) .suspPowerFail .s5 r)
  | .u1 => .ok (s.writeReturned (s.powerSet true) .resPowerFail .u2 r)
  | .u3 => .ok (s.powerReturned r)
  | .u4 => .ok (s.writeReturned (s.streamingSet true) .resStreamFail .u5 r)
  | .u6 => .ok (s.streamReturned r)
  | .f1 => .ok (s.goto (.f2 r))
  | .a0 _ | .a1 _ | .a2 _ | .a3 | .a4 | .a5 | .a6 | .a7 | .a8 | .a9 | .a11 _ | .a12 | .a14 _ | .a15 | .a17 _ | .a18
  | .a19 | .a20 | .b1 _ _ | .b2 | .b3 | .b4 | .b5 | .b6 | .b7 => labelBegin l s
  | .s0 | .s1 | .s3 | .s5 | .s6 | .u0 | .u2 | .u5 | .u7 | .u8 | .u9 => labelBegin l s
  | .x0 | .x1 | .x2 | .x3 | .x4 | .x5 | .x6 | .x7 | .x8 | .f0 | .f2 _ | .f3 _ => labelBegin l s
  | .i1 | .i2 | .i3 _ | .i4 | .i5 | .i6 | .i6e _ _ | .i7 | .i8 | .i9 => labelBegin l s

end Sys2Proof.Machine
end

