-- ==== Sys2Proof/Machine/Sequencer.lean ====
section
/-! DEFINITION. The sequencer (10_state.md R21): one tick is one move at the program counter, a run is the ticks of
one instruction up to its end, to a call that is not answered yet, or to a move of another agent. -/

namespace Sys2Proof.Machine

/-- The outcome of one sequencer tick. -/
inductive Tick where
  /-- The sequencer moved. -/
  | moved (s : State)
  /-- It has no move: nothing to do, a call without its answer (R302), or another agent moves first. -/
  | rest
  /-- A model fault (R13). -/
  | fault (f : Fault)

/-- The sequencer's move while no call is outstanding. `none` when it is idle. -/
def State.advance (s : State) : Option (Except Fault State) :=
  match s.unit, s.step with
  | some (op, t), _ => some (s.unitStep op t)
  | none, none => none
  | none, some l =>
    match s.ur with
    | some r => some (labelReturn l r s)
    | none => some (labelBegin l s)

/-- The answer `r` to the outstanding call `c`, taken by the unit operation that made it or else by the step. -/
def State.takeAnswer (c : Call) (extra : Nat) (r : Reply) (s : State) : State :=
  let t := s.answered c extra r
  match s.unit, s.step with
  | some (op, u), _ => t.unitAnswer op u r
  | none, some l => labelAnswer l r t
  | none, none => t

/-- One tick. An answer that the outstanding call cannot get is no move and is dropped (log 2). -/
def tick (s : State) : Tick :=
  if s.asyncNext then .rest
  else
    match s.call with
    | some c =>
      match s.inbox with
      | .reply extra r :: rest =>
        if c.fits r then .moved (({ s with inbox := rest }).takeAnswer c extra r)
        else .moved { s with inbox := rest }
      | .turn _ :: rest => .moved { s with inbox := rest }
      | _ => .rest
    | none =>
      match s.popTurn.advance with
      | none => .rest
      | some (.ok t) => .moved t
      | some (.error f) => .fault f

/-- A run: at most `fuel` ticks while `going` holds. -/
def run (going : State → Bool) : Nat → State → Host.Outcome State Fault Refusal
  | 0, s => .next s
  | fuel + 1, s =>
    if going s then
      match tick s with
      | .moved t => run going fuel t
      | .rest => .next s
      | .fault f => .fault f
    else .next s

/-- Enough ticks for any run (R302): a tick takes a move from the inbox, calls for one, or is one of a bounded number. -/
def State.fuel (s : State) : Nat := 2 * s.inbox.length + 128

/-- Running the top-level operation in flight to its end. -/
def runOp (s : State) : Host.Outcome State Fault Refusal := run (fun t => t.step.isSome) s.fuel s

/-- Running the unit operation in flight to its return. -/
def runUnit (s : State) : Host.Outcome State Fault Refusal := run (fun t => t.unit.isSome) s.fuel s

end Sys2Proof.Machine
end

