-- ==== Sys2Proof/Machine/Commands.lean ====
section
/-! DEFINITION. The meanings of the ten command frames (30_encoding.md R84): each is its catalog rule's unit
operation (41_message_catalog.md R131 to R140), from T1 to the value it returns. -/

namespace Sys2Proof.Machine

/-- Running a command: its unit operation starts at T1 when the bus is free, or goes on when it is the one in flight,
which its frame tells. Otherwise the command waits: no two transfers of one instance overlap (R68 b, log 15). -/
def execUnit (op : UnitOp) (s : State) : Host.Outcome State Fault Refusal :=
  match s.unit with
  | some (o, _) => if o.frame s.par = op.frame s.par then runUnit s else .next s
  | none => if s.call.isNone then runUnit (s.unitEnter op) else .next s

/-- REQ FW_VER: FwVerRead() (R131). -/
def execReqFwVer (s : State) : Host.Outcome State Fault Refusal := execUnit .fwVerRead s

/-- REQ POWER: PowerRead() (R133). -/
def execReqPower (s : State) : Host.Outcome State Fault Refusal := execUnit .powerRead s

/-- WR POWER on: PowerWrite(true) (R132). -/
def execWrPowerOn (s : State) : Host.Outcome State Fault Refusal := execUnit (.powerWrite true) s

/-- WR POWER off: PowerWrite(false) (R132). -/
def execWrPowerOff (s : State) : Host.Outcome State Fault Refusal := execUnit (.powerWrite false) s

/-- REQ FINGER: FingerRead() (R135). -/
def execReqFinger (s : State) : Host.Outcome State Fault Refusal := execUnit .fingerRead s

/-- WR PACKET on: PacketWrite(true) (R136). -/
def execWrPacketOn (s : State) : Host.Outcome State Fault Refusal := execUnit (.packetWrite true) s

/-- WR PACKET off: PacketWrite(false) (R136). -/
def execWrPacketOff (s : State) : Host.Outcome State Fault Refusal := execUnit (.packetWrite false) s

/-- REQ PACKET: PacketRead() (R137). -/
def execReqPacket (s : State) : Host.Outcome State Fault Refusal := execUnit .packetRead s

/-- REQ WIDTH: WidthRead() (R139). -/
def execReqWidth (s : State) : Host.Outcome State Fault Refusal := execUnit .widthRead s

/-- REQ HEIGHT: HeightRead() (R140). -/
def execReqHeight (s : State) : Host.Outcome State Fault Refusal := execUnit .heightRead s

end Sys2Proof.Machine
end

