-- ==== Sys2Proof/Machine/Frames.lean ====
section
/-! DEFINITION. The meanings of the frames the chip sends (30_encoding.md R85 to R89): a response ends the
`transact` that waits for it (R112), a hello ends ATTACH's step A9 (R203), an interrupt frame is received by
DISPATCH's step I4 and routed by its opcode (R240). A frame that no receive waits for stays with the chip and
changes nothing (log 15). -/

namespace Sys2Proof.Machine

/-- A `transact` waits for its response at T3. -/
def State.awaitsResponse (s : State) : Bool :=
  s.call == some (.busRecv s.par.lit.cmdLen) && (s.unit.map Prod.snd == some .t3)

/-- ATTACH waits for the hello at A9. -/
def State.awaitsHello (s : State) : Bool :=
  s.call == some (.busRecv s.par.lit.helloLen) && s.unit.isNone && s.stepName == some .a9

/-- DISPATCH waits for its frame at I4. -/
def State.awaitsIrqFrame (s : State) : Bool :=
  s.call == some (.busRecv s.par.lit.rptLen) && s.unit.isNone && s.stepName == some .i4

/-- The frame is the answer that comes next, as an answer with the requested count (R111): how long the call took
beyond its minimum, and the state with the answer taken. -/
def State.takeFrame (f : List Byte) (s : State) : Nat × State :=
  match s.inbox with
  | .reply extra (.received c b) :: rest =>
    if c = (f.length : Int) ∧ b.take f.length = f then (extra, { s with inbox := rest }) else (0, s)
  | _ => (0, s)

/-- The outstanding receive is answered with a whole frame. -/
def State.receiveFrame (f : List Byte) (s : State) : State :=
  (s.takeFrame f).2.takeAnswer (.busRecv f.length) (s.takeFrame f).1 (.received (f.length : Int) f)

/-- A response frame: T3's receive, then T4's marker check and the return (R112). -/
def execResponse (f : List Byte) (s : State) : Host.Outcome State Fault Refusal :=
  if s.awaitsResponse && f.length == s.par.lit.cmdLen then runUnit (s.receiveFrame f) else .next s

/-- A hello frame: A9's receive and its check (R203). -/
def execHelloFrame (f : List Byte) (s : State) : Host.Outcome State Fault Refusal :=
  if s.awaitsHello && f.length == s.par.lit.helloLen then .next (s.receiveFrame f) else .next s

/-- An interrupt frame: I4's receive, then the dispatch to its end (R240). -/
def execIrqFrame (f : List Byte) (s : State) : Host.Outcome State Fault Refusal :=
  if s.awaitsIrqFrame && f.length == s.par.lit.rptLen then runOp (s.receiveFrame f) else .next s

/-- RESP (R112). -/
def execResp (r1 r2 r3 : Byte) (s : State) : Host.Outcome State Fault Refusal :=
  execResponse [s.par.lit.mkResponse, r1, r2, r3] s

/-- RESP with a bad marker: ProtocolError (R93 a, R112). -/
def execRespBadMarker (m r1 r2 r3 : Byte) (s : State) : Host.Outcome State Fault Refusal :=
  execResponse [m, r1, r2, r3] s

/-- HELLO (R203). -/
def execHello (s : State) : Host.Outcome State Fault Refusal :=
  execHelloFrame (List.replicate s.par.lit.helloLen s.par.lit.helloByte) s

/-- HELLO mismatch: a SoftWarning (R203). -/
def execHelloMismatch (b0 b1 b2 b3 : Byte) (s : State) : Host.Outcome State Fault Refusal :=
  execHelloFrame [b0, b1, b2, b3] s

/-- IRQ REPORT (R242). -/
def execIrqReport (b1 : Byte) (rest : List Byte) (s : State) : Host.Outcome State Fault Refusal :=
  execIrqFrame (s.par.lit.opReport :: b1 :: rest) s

/-- IRQ NOISE (R243). -/
def execIrqNoise (flag : Byte) (rest : List Byte) (s : State) : Host.Outcome State Fault Refusal :=
  execIrqFrame (s.par.lit.opNoise :: flag :: rest) s

/-- IRQ CALIB (R244). -/
def execIrqCalib (rest : List Byte) (s : State) : Host.Outcome State Fault Refusal :=
  execIrqFrame (s.par.lit.opCalib :: rest) s

/-- IRQ HELLO (R245). -/
def execIrqHello (rest : List Byte) (s : State) : Host.Outcome State Fault Refusal :=
  execIrqFrame (s.par.lit.opHello :: rest) s

/-- IRQ with any other opcode: ignored (R241). -/
def execIrqOther (op : Byte) (rest : List Byte) (s : State) : Host.Outcome State Fault Refusal :=
  execIrqFrame (op :: rest) s

end Sys2Proof.Machine
end

