-- ==== Sys2Proof/Machine/Requests.lean ====
section
/-! DEFINITION. The meanings of the host requests (30_encoding.md R92, 44_lifecycle.md R200 to R222) and of the
interrupt line (10_state.md R34, 45_dispatcher.md R240). A request that finds an operation in flight waits in the
request port (R42, R72). -/

namespace Sys2Proof.Machine

/-- The request port holds this request. -/
def State.holdsRequest (i : Instr) (s : State) : Bool := s.hostReq.map decodeRequest == some i

/-- The arbiter takes the request out of the port (R66: "clearing HOST_REQ"), when that is where it stands; with an
interrupt pending beside it, this was the arbiter's choice. -/
def State.takePort (i : Instr) (s : State) : State :=
  if s.holdsRequest i then { s.arbitrate.2.popTurn with hostReq := none } else s

/-- A request that finds an operation in flight waits in the port (R42, R72). -/
def State.waitRequest (i : Instr) (q : HostReq) (s : State) : State :=
  if s.holdsRequest i then s else s.postRequest q

/-- The arbiter takes a request and the operation runs (R66, R200). -/
def execRequest (i : Instr) (q : HostReq) (l : Label) (s : State) : Host.Outcome State Fault Refusal :=
  if s.atRest then runOp ((s.takePort i).takeRequest l) else .next (s.waitRequest i q)

/-- The arbiter takes a reserved request (R200). -/
def execReserved (i : Instr) (q : HostReq) (s : State) : Host.Outcome State Fault Refusal :=
  if s.atRest then .next (s.takePort i).rejectReserved else .next (s.waitRequest i q)

/-- ATTACH(cfg) (R201 to R207). -/
def execAttach (cfg : Option CfgRecord) (s : State) : Host.Outcome State Fault Refusal :=
  execRequest (.attach cfg) ⟨0, cfg⟩ (.a0 cfg) s

/-- SUSPEND (R210). -/
def execSuspend (s : State) : Host.Outcome State Fault Refusal := execRequest .suspend ⟨1, none⟩ .s0 s

/-- RESUME (R214). -/
def execResume (s : State) : Host.Outcome State Fault Refusal := execRequest .resume ⟨2, none⟩ .u0 s

/-- DETACH (R218). -/
def execDetach (s : State) : Host.Outcome State Fault Refusal := execRequest .detach ⟨3, none⟩ .x0 s

/-- FINGER_QUERY (R222). -/
def execFingerQuery (s : State) : Host.Outcome State Fault Refusal := execRequest .fingerQuery ⟨4, none⟩ .f0 s

/-- Reserved request 5 (R200). -/
def execReserved5 (s : State) : Host.Outcome State Fault Refusal := execReserved .reserved5 ⟨5, none⟩ s

/-- Reserved request 6 (R200). -/
def execReserved6 (s : State) : Host.Outcome State Fault Refusal := execReserved .reserved6 ⟨6, none⟩ s

/-- Reserved request 7 (R200). -/
def execReserved7 (s : State) : Host.Outcome State Fault Refusal := execReserved .reserved7 ⟨7, none⟩ s

/-- The arbiter starts a DISPATCH and it runs (R66, R240, R272). -/
def startDispatch (s : State) : Host.Outcome State Fault Refusal := runOp s.popTurn.enterDispatch

/-- The assertion is taken from the other agents' moves, when that is where it stands. -/
def State.takeAssertion (s : State) : State :=
  match s.inbox with
  | .irq :: rest => { s with inbox := rest }
  | _ => s

/-- One assertion of the interrupt line: the latch (R34), and then its DISPATCH when the sequencer is at rest, no
other agent moves first and no request is pending; with a request pending the next step arbitrates (R66, log 22). -/
def execIrqLine (s : State) : Host.Outcome State Fault Refusal :=
  let t := s.takeAssertion.latchIrq
  if t.dispatchPending && t.atRest && !t.asyncNext && t.hostReq.isNone then startDispatch t else .next t

end Sys2Proof.Machine
end

