-- ==== Sys2Proof/Machine/StatusPort.lean ====
section
/-! DEFINITION. The read-only status port (10_state.md R44, R69): registers RN 0..31. A field whose valid bit is 0
reads as the corresponding bits of the draw that the read carries (log 10). -/

namespace Sys2Proof.Machine

/-- One bit at a position. -/
def portBit (b : Bool) (n : Nat) : BitVec 16 := if b then 1 <<< n else 0

/-- A field that may hold ⊥: its value, or else the draw's bits under the field's mask. -/
def portField {w : Nat} (v : Option (BitVec w)) (mask draw : BitVec 16) : BitVec 16 :=
  match v with
  | some x => x.setWidth 16
  | none => draw &&& mask

/-- A Boolean field that may hold ⊥, at a position. -/
def portFlag (v : Option Bool) (n : Nat) (draw : BitVec 16) : BitVec 16 :=
  match v with
  | some b => portBit b n
  | none => draw &&& portBit true n

/-- STREAM_RB's kind (RN 6 bits 3:2). -/
def streamKind : Option StreamState → BitVec 16
  | none => 0
  | some .on => 1
  | some .off => 2
  | some (.unrecognised _) => 3

/-- STREAM_RB's raw byte (RN 6 bits 15:8), present when the kind is 3. -/
def streamRaw : Option StreamState → BitVec 16
  | some (.unrecognised b) => b.setWidth 16
  | _ => 0

/-- RN 0, STATUS. -/
def State.portStatus (s : State) : BitVec 16 :=
  s.life.code.setWidth 16 ||| portBit s.irqEn 3 ||| portBit s.irqPend 4 ||| portBit s.fault 5 ||| portBit s.busy 6
    ||| (s.lastResult.code.setWidth 16 <<< 8)

/-- RN 1, RESOURCES and the valid bits. -/
def State.portResources (s : State) : BitVec 16 :=
  portBit s.res.pins 0 ||| portBit s.res.irqCfg 1 ||| portBit s.res.bus 2 ||| portBit s.res.host 3
    ||| portBit s.ses.fwVersion.isSome 4 ||| portBit s.ses.width.isSome 5 ||| portBit s.ses.height.isSome 6
    ||| portBit s.ses.cfgValid 7 ||| portBit s.lastReport.isSome 8

/-- RN 5, POWER. -/
def State.portPower (draw : BitVec 16) (s : State) : BitVec 16 :=
  portFlag s.ses.powerOn 0 draw ||| portBit s.ses.powerOn.isSome 1 ||| portFlag s.ses.powerRb 2 draw
    ||| portBit s.ses.powerRb.isSome 3

/-- RN 6, STREAM. -/
def State.portStream (draw : BitVec 16) (s : State) : BitVec 16 :=
  portFlag s.ses.streamingOn 0 draw ||| portBit s.ses.streamingOn.isSome 1 ||| (streamKind s.ses.streamRb <<< 2)
    ||| (streamRaw s.ses.streamRb <<< 8)

/-- RN 9, CFG_FLAGS. -/
def State.portCfgFlags (draw : BitVec 16) (s : State) : BitVec 16 :=
  portFlag s.ses.cfgRx 0 draw ||| portFlag s.ses.cfgRy 1 draw ||| portFlag s.ses.cfgXy 2 draw

/-- The position of slot `i` in a report, where the slot holds a present point (R38). -/
def Report.position (r : Report) (i : Nat) : Option (BitVec 12 × BitVec 12) :=
  (r.pts.find? (fun p => p.slot == i)).bind TouchPoint.pos

/-- RN 11, REPORT_HDR: the finger count, then the present bit of each slot. -/
def State.portReportHdr (draw : BitVec 16) (s : State) : BitVec 16 :=
  match s.lastReport with
  | none => draw &&& 0x00FF
  | some r =>
    r.fc.setWidth 16 ||| portBit (r.position 0).isSome 3 ||| portBit (r.position 1).isSome 4
      ||| portBit (r.position 2).isSome 5 ||| portBit (r.position 3).isSome 6 ||| portBit (r.position 4).isSome 7

/-- RN 12 + 2i, REPORT_X_i. -/
def State.portReportX (i : Nat) (draw : BitVec 16) (s : State) : BitVec 16 :=
  portField ((s.lastReport.bind fun r => r.position i).map Prod.fst) 0x0FFF draw

/-- RN 13 + 2i, REPORT_Y_i. -/
def State.portReportY (i : Nat) (draw : BitVec 16) (s : State) : BitVec 16 :=
  portField ((s.lastReport.bind fun r => r.position i).map Prod.snd) 0x0FFF draw

/-- The status port's registers (R44). RN 22..31 read as 0. -/
def State.portValue (rn : Nat) (draw : BitVec 16) (s : State) : BitVec 16 :=
  if rn = 0 then s.portStatus
  else if rn = 1 then s.portResources
  else if rn = 2 then portField s.ses.fwVersion 0xFFFF draw
  else if rn = 3 then portField s.ses.width 0x0FFF draw
  else if rn = 4 then portField s.ses.height 0x0FFF draw
  else if rn = 5 then s.portPower draw
  else if rn = 6 then s.portStream draw
  else if rn = 7 then portField s.ses.cfgSmx 0xFFFF draw
  else if rn = 8 then portField s.ses.cfgSmy 0xFFFF draw
  else if rn = 9 then s.portCfgFlags draw
  else if rn = 10 then s.faultCause.code.setWidth 16
  else if rn = 11 then s.portReportHdr draw
  else if rn < 22 then
    if rn % 2 = 0 then s.portReportX ((rn - 12) / 2) draw else s.portReportY ((rn - 13) / 2) draw
  else 0

/-- A status-port read (R44, R69): the value at that moment goes to the host, nothing else changes. -/
def State.portRead (rn : BitVec 5) (draw : BitVec 16) (s : State) : State :=
  { s with portLog := s.portLog ++ [(rn, s.portValue rn.toNat draw)] }

end Sys2Proof.Machine
end

