-- ==== Sys2Proof/Machine/Fetch.lean ====
section
/-! DEFINITION. Where the machine finds its next instruction (30_encoding.md R91, 20_memory.md R66 and R75): the
interrupt line, the frame that an outstanding receive is answered with, the command at the program counter, or the
request that the arbiter picks. And what a step does when none of them stands there. -/

namespace Sys2Proof.Machine

/-- Bits that a row of the opcode table stands for. With other literals than the default a frame may have none; then
the sequencer takes it as any answer (log 5). -/
def State.decodable (s : State) (w : Wire) : Option Wire :=
  match decode s.par w with
  | .ok _ => some w
  | .error _ => none

/-- A frame of `n` bytes that answers the outstanding receive with the requested count (R111). -/
def State.fetchFrame (kind : List Byte → Wire) (n : Nat) (s : State) : Option Wire :=
  match s.inbox with
  | .reply _ (.received c b) :: _ => if c = (n : Int) ∧ n ≤ b.length then s.decodable (kind (b.take n)) else none
  | _ => none

/-- The request that the arbiter picks (R66). -/
def State.fetchRequest (s : State) : Option Wire :=
  if s.arbitrate.1 then s.hostReq.map Wire.request else none

/-- The instruction at the sequencer's side: a frame it waits for, the command at T1, or a request. -/
def State.fetchSequencer (s : State) : Option Wire :=
  if s.awaitsResponse then s.fetchFrame .reply s.par.lit.cmdLen
  else if s.awaitsHello then s.fetchFrame .hello s.par.lit.helloLen
  else if s.awaitsIrqFrame then s.fetchFrame .irq s.par.lit.rptLen
  else
    match s.call, s.unit with
    | none, some (op, .t1) => some (.sent (op.frame s.par))
    | none, none => if s.step.isNone then s.fetchRequest else none
    | _, _ => none

/-- The host waits with a request and HOST_REQ has become free: its write comes first (R42, log 8). -/
def State.hostCanWrite (s : State) : Bool := s.hostReq.isNone && !s.hostWait.isEmpty

/-- The bits of the next instruction, with the port they stand at. -/
def State.fetch (s : State) : Option Wire :=
  if s.hostCanWrite then none
  else
    match s.inbox with
    | .irq :: _ => some .line
    | _ => if s.asyncNext then none else s.fetchSequencer

/-- The host's waiting write (R42). -/
def State.writeWaiting (s : State) : State :=
  match s.hostWait with
  | q :: w => { s with hostReq := some q, hostWait := w }
  | [] => s

/-- At rest with nothing pending: a move that no one waits for is dropped (log 2), else the block stays idle (R291). -/
def State.dropStray (s : State) : State :=
  match s.inbox with
  | .reply _ _ :: rest => { s with inbox := rest }
  | .turn _ :: rest => { s with inbox := rest }
  | _ => s

/-- One tick as a step. Where the sequencer has no move it stays where it is (R302, log 28). -/
def tickStep (s : State) : Host.Outcome State Fault Refusal :=
  match tick s with
  | .moved t => .next t
  | .rest => .next s
  | .fault f => .fault f

/-- A step that executes no instruction: another agent's move, of which RST is instantaneous (log 30), one tick of the operation in flight, the start of a
pending DISPATCH, or nothing. -/
def State.otherMove (s : State) : Host.Outcome State Fault Refusal :=
  if s.hostCanWrite then .next s.writeWaiting
  else
    match s.inbox with
    | .request q :: rest => .next (({ s with inbox := rest }).postRequest q)
    | .rst :: rest => .next ({ s with inbox := rest }).blockReset
    | .portRead rn draw :: rest => .next (({ s with inbox := rest }).portRead rn draw)
    | _ =>
      if !s.atRest then tickStep s
      else if s.dispatchPending then startDispatch s.arbitrate.2
      else .next s.dropStray

/-! ## Placing an instruction where the machine finds it -/

/-- The step that calls a unit operation (44_lifecycle.md R201, R210, R214, R222). -/
def UnitOp.caller : UnitOp → Label
  | .fwVerRead => .a10
  | .powerRead => .u3
  | .powerWrite true => .u1
  | .powerWrite false => .s4
  | .fingerRead => .f1
  | .packetWrite true => .u4
  | .packetWrite false => .s2
  | .packetRead => .u6
  | .widthRead => .a13
  | .heightRead => .a16

/-- The sequencer stands at a step, with a call outstanding or not, and is given this move next. -/
def State.placeAt (l : Option Label) (u : Option (UnitOp × TStep)) (c : Option Call) (i : Input) (s : State) : State :=
  { s with step := l, unit := u, ur := none, call := c, hostWait := [], inbox := i :: s.inbox }

/-- Bits placed at their port (log 13). -/
def State.placeWire (w : Wire) (s : State) : State :=
  match w with
  | .sent f =>
    match UnitOp.all.find? (fun op => op.frame {} == f) with
    | some op => s.placeAt (some (UnitOp.caller op)) (some (op, .t1)) none (.turn true)
    | none => s
  | .reply f =>
    s.placeAt (some .a10) (some (.fwVerRead, .t3)) (some (.busRecv s.par.lit.cmdLen))
      (.reply 0 (.received (f.length : Int) f))
  | .hello f =>
    s.placeAt (some .a9) none (some (.busRecv s.par.lit.helloLen)) (.reply 0 (.received (f.length : Int) f))
  | .irq f =>
    s.placeAt (some .i4) none (some (.busRecv s.par.lit.rptLen)) (.reply 0 (.received (f.length : Int) f))
  | .request q => { s.placeAt none none none (.turn true) with hostReq := some q }
  | .line => { s with hostWait := [], inbox := .irq :: s.inbox }

end Sys2Proof.Machine
end

