-- ==== Sys2Proof/Machine/Dispatch.lean ====
section
/-! DEFINITION. One arm for each instruction of the opcode table. -/

namespace Sys2Proof.Machine

def exec (i : Instr) (s : State) : Host.Outcome State Fault Refusal :=
  match i with
  | .reqFwVer => Sys2Proof.Machine.execReqFwVer s
  | .reqPower => Sys2Proof.Machine.execReqPower s
  | .wrPowerOn => Sys2Proof.Machine.execWrPowerOn s
  | .wrPowerOff => Sys2Proof.Machine.execWrPowerOff s
  | .reqFinger => Sys2Proof.Machine.execReqFinger s
  | .wrPacketOn => Sys2Proof.Machine.execWrPacketOn s
  | .wrPacketOff => Sys2Proof.Machine.execWrPacketOff s
  | .reqPacket => Sys2Proof.Machine.execReqPacket s
  | .reqWidth => Sys2Proof.Machine.execReqWidth s
  | .reqHeight => Sys2Proof.Machine.execReqHeight s
  | .resp r1 r2 r3 => Sys2Proof.Machine.execResp r1 r2 r3 s
  | .respBadMarker m r1 r2 r3 => Sys2Proof.Machine.execRespBadMarker m r1 r2 r3 s
  | .hello => Sys2Proof.Machine.execHello s
  | .helloMismatch b0 b1 b2 b3 => Sys2Proof.Machine.execHelloMismatch b0 b1 b2 b3 s
  | .irqReport b1 rest => Sys2Proof.Machine.execIrqReport b1 rest s
  | .irqNoise flag rest => Sys2Proof.Machine.execIrqNoise flag rest s
  | .irqCalib rest => Sys2Proof.Machine.execIrqCalib rest s
  | .irqHello rest => Sys2Proof.Machine.execIrqHello rest s
  | .irqOther op rest => Sys2Proof.Machine.execIrqOther op rest s
  | .attach cfg => Sys2Proof.Machine.execAttach cfg s
  | .suspend => Sys2Proof.Machine.execSuspend s
  | .resume => Sys2Proof.Machine.execResume s
  | .detach => Sys2Proof.Machine.execDetach s
  | .fingerQuery => Sys2Proof.Machine.execFingerQuery s
  | .reserved5 => Sys2Proof.Machine.execReserved5 s
  | .reserved6 => Sys2Proof.Machine.execReserved6 s
  | .reserved7 => Sys2Proof.Machine.execReserved7 s
  | .irqLine => Sys2Proof.Machine.execIrqLine s

end Sys2Proof.Machine
end

