-- ==== Sys2Proof/Machine/Step.lean ====
section
/-! DEFINITION. One step of the machine, and the placing of an opcode-table word where the step finds it. -/

namespace Sys2Proof.Machine

/-- A step executes the instruction that stands at the block's ports or at its program counter, or, where none
does, lets another agent or the sequencer move (R20, R21, R66). -/
def step (s : State) : Host.Outcome State Fault Refusal :=
  match s.fetch with
  | some w =>
    match decode s.par w with
    | .ok i => exec i s
    | .error r => .refused (.rejected r)
  | none => s.otherMove

/-- The state with an opcode-table word where `step` finds its next instruction (log 13). -/
def State.withFetchWord (s : State) (nbits w : Nat) : State :=
  match tableWire nbits w with
  | some wire => s.placeWire wire
  | none => s

end Sys2Proof.Machine
end

