-- ==== Sys2Proof/Safety.lean ====
section
/-! DEFINITION. What a good state of the block is: the invariants of 44_lifecycle.md R225 between operations, and
what holds at each step label inside one, in the terms the statements use. -/

namespace Sys2Proof.Safety

open Sys2Proof.Machine

/-- The configuration registers hold a value, the sensor maxima too when SENSOR_MAX_SOURCE is Config (R31, R32). -/
abbrev CfgHeld (s : State) : Prop :=
  s.ses.cfgSmx.isSome ∧ s.ses.cfgSmy.isSome ∧ s.ses.cfgRx.isSome ∧ s.ses.cfgRy.isSome ∧ s.ses.cfgXy.isSome
    ∧ s.ses.cfgIrqMode.isSome ∧ (s.par.sensorMaxSource = .config → s.ses.cfgSnx.isSome ∧ s.ses.cfgSny.isSome)

/-- Nothing is held (R225 e): no resource, no pin handle, every session register and LAST_REPORT at ⊥, and the
interrupt masked. -/
abbrev NoneHeld (s : State) : Prop :=
  s.res = {} ∧ s.ses = {} ∧ s.lastReport = none ∧ s.irqEn = false ∧ s.irqPend = false

/-- Everything is held (R225 d, f): all resources, both pins, the configuration and the queried registers. -/
abbrev AllHeld (s : State) : Prop :=
  s.res.pins ∧ s.res.irqCfg ∧ s.res.bus ∧ s.res.host ∧ s.res.pinRst.isSome ∧ s.res.pinInt.isSome ∧ CfgHeld s
    ∧ s.ses.fwVersion.isSome ∧ s.ses.width.isSome ∧ s.ses.height.isSome

/-- Between operations (R225 a to f): which LIFE goes with what is held and with the interrupt enable. FAULT is set
only in Ready or, after a DETACH, in Detached (R221, R224). -/
abbrev Quiet (s : State) : Prop :=
  ((s.life = .cold ∨ s.life = .detached) ∧ NoneHeld s
      ∨ s.life = .ready ∧ AllHeld s ∧ s.irqEn = true
      ∨ s.life = .suspended ∧ AllHeld s ∧ s.irqEn = false ∧ s.irqPend = false)
    ∧ (s.fault = true → s.life = .ready ∨ s.life = .detached)

/-- Inside ATTACH before it is complete: what has been acquired and read so far (R201). -/
abbrev Attaching (pinRst pinInt irqCfg bus host fw width height : Bool) (s : State) : Prop :=
  s.res.pinRst.isSome = pinRst ∧ s.res.pinInt.isSome = pinInt ∧ s.res.pins = pinInt ∧ s.res.irqCfg = irqCfg
    ∧ s.res.bus = bus ∧ s.res.host = host ∧ CfgHeld s ∧ s.ses.fwVersion.isSome = fw ∧ s.ses.width.isSome = width
    ∧ s.ses.height.isSome = height ∧ s.irqEn = false ∧ s.irqPend = false ∧ s.fault = false

/-- Inside a release (R207, R218): the interrupt is masked, and the pin flag goes with the reset pin. -/
abbrev Releasing (s : State) : Prop :=
  s.irqEn = false ∧ s.irqPend = false ∧ (s.res.pins = true → s.res.pinRst.isSome)

/-- Ready with a DISPATCH or a FINGER_QUERY in flight: neither runs while FAULT is set (R200, R240). -/
abbrev ReadyHeld (s : State) : Prop := s.life = .ready ∧ AllHeld s ∧ s.irqEn = true ∧ s.fault = false

/-- Suspended, or on the way there or back, with the interrupt masked (R210, R214). -/
abbrev MaskedHeld (s : State) : Prop := AllHeld s ∧ s.irqEn = false ∧ s.irqPend = false ∧ s.fault = false

/-- A whole interrupt frame is in RX. -/
abbrev FrameInRx (s : State) : Prop := s.rx.map List.length = some s.par.lit.rptLen

/-- What holds while the sequencer stands at a step label; `LifeAt` adds LIFE at every one of them. -/
def AtLabel : Label → State → Prop
  | .a0 _, s => Quiet s
  | .a1 _, s => s.life = .cold ∧ NoneHeld s ∧ s.fault = false
  | .a2 c, s => s.life = .cold ∧ NoneHeld s ∧ s.fault = false ∧ (s.par.sensorMaxSource = .config → c.sensor.isSome)
  | .a3, s => Attaching false false false false false false false false s
  | .a4, s => Attaching true false false false false false false false s
  | .a5, s => Attaching true true false false false false false false s
  | .a6, s => Attaching true true true false false false false false s
  | .a7, s => Attaching true true true true false false false false s
  | .a8, s => Attaching true true true true false false false false s
  | .a9, s => Attaching true true true true false false false false s
  | .a10, s => Attaching true true true true false false false false s
  | .a11 _, s => Attaching true true true true false false false false s
  | .a12, s => Attaching true true true true false true false false s
  | .a13, s => Attaching true true true true false true false false s
  | .a14 _, s => Attaching true true true true false true false false s
  | .a15, s => Attaching true true true true false true true false s
  | .a16, s => Attaching true true true true false true true false s
  | .a17 _, s => Attaching true true true true false true true false s
  | .a18, s => Attaching true true true true false true true true s
  | .a19, s => Attaching true true true true true true true true s
  | .a20, s => AllHeld s ∧ s.irqEn = true ∧ s.fault = false
  | .b1 _ _, s => Releasing s ∧ s.fault = false ∧ s.res.host = false
  | .b2, s => Releasing s ∧ s.fault = false ∧ s.res.host = false
  | .b3, s => Releasing s ∧ s.fault = false ∧ s.res.host = false ∧ s.res.bus = false
  | .b4, s => Releasing s ∧ s.fault = false ∧ s.res.host = false ∧ s.res.bus = false ∧ s.res.irqCfg = false
  | .b5, s => Releasing s ∧ s.fault = false ∧ s.res.host = false ∧ s.res.bus = false ∧ s.res.irqCfg = false
  | .b6, s =>
    Releasing s ∧ s.fault = false ∧ s.res.host = false ∧ s.res.bus = false ∧ s.res.irqCfg = false
      ∧ s.res.pinInt = none
  | .b7, s => NoneHeld s ∧ s.fault = false
  | .s0, s => Quiet s
  | .s1, s => s.life = .ready ∧ AllHeld s ∧ s.fault = false
  | .s2, s => MaskedHeld s
  | .s3, s => MaskedHeld s
  | .s4, s => MaskedHeld s
  | .s5, s => MaskedHeld s
  | .s6, s => MaskedHeld s ∧ s.life = .suspended
  | .u0, s => Quiet s
  | .u1, s => MaskedHeld s
  | .u2, s => MaskedHeld s
  | .u3, s => MaskedHeld s
  | .u4, s => MaskedHeld s
  | .u5, s => MaskedHeld s
  | .u6, s => MaskedHeld s
  | .u7, s => MaskedHeld s
  | .u8, s => AllHeld s ∧ s.irqEn = true ∧ s.fault = false
  | .u9, s => AllHeld s ∧ s.irqEn = true ∧ s.fault = false ∧ s.life = .ready
  | .x0, s => Quiet s
  | .x1, s => Quiet s
  | .x2, s => Quiet s
  | .x3, s => Releasing s
  | .x4, s => Releasing s ∧ s.res.bus = false
  | .x5, s => Releasing s ∧ s.res.bus = false ∧ s.res.irqCfg = false
  | .x6, s => Releasing s ∧ s.res.bus = false ∧ s.res.irqCfg = false ∧ s.res.host = false
  | .x7, s => Releasing s ∧ s.res.bus = false ∧ s.res.irqCfg = false ∧ s.res.host = false ∧ s.res.pinInt = none
  | .x8, s => NoneHeld s
  | .f0, s => Quiet s
  | .f1, s => ReadyHeld s
  | .f2 r, s => ReadyHeld s ∧ ∀ v, r = .ok v → ∃ b, v = .flag b
  | .f3 _, s => ReadyHeld s
  | .i1, s => ReadyHeld s
  | .i2, s => ReadyHeld s
  | .i3 _, s => ReadyHeld s
  | .i4, s => ReadyHeld s
  | .i5, s => ReadyHeld s ∧ FrameInRx s
  | .i6, s => ReadyHeld s ∧ FrameInRx s
  | .i6e _ _, s => ReadyHeld s
  | .i7, s => ReadyHeld s ∧ FrameInRx s
  | .i8, s => ReadyHeld s
  | .i9, s => ReadyHeld s

/-- The states between operations (R225 a). -/
abbrev IdleLife (life : Life) : Prop := life = .cold ∨ life = .ready ∨ life = .suspended ∨ life = .detached

/-- LIFE on the abort path (R201, R207): the step that aborted found it Cold, AwaitHello or QueryInfo. -/
abbrev AbortedLife (life : Life) : Prop := life = .cold ∨ life = .awaitHello ∨ life = .queryInfo

/-- LIFE inside a DETACH that releases (R218). -/
abbrev AttachedLife (life : Life) : Prop := life = .cold ∨ life = .ready ∨ life = .suspended

/-- The LIFE that a step of ATTACH finds when it aborts (R201): A3, A4 and A6 acquire before the pulse, A9 has written
AwaitHello, and the later ones QueryInfo. No other step aborts. -/
def AbortsIn : StepName → Life → Prop
  | .a3, life | .a4, life | .a6, life => life = .cold
  | .a9, life => life = .awaitHello
  | .a10, life | .a13, life | .a16, life | .a18, life => life = .queryInfo
  | _, _ => False

/-- LIFE while the sequencer stands at a step label (R22, R201, R207, R210, R214, R218, R222, R240). A7, A9 and A10 write
it before their call: the old value stands until the call is outstanding, and at A10 until the read has started. -/
def LifeAt : Label → State → Prop
  | .a0 _, s | .s0, s | .u0, s | .x0, s | .x1, s | .f0, s => IdleLife s.life
  | .a1 _, s | .a2 _, s | .a3, s | .a4, s | .a5, s | .a6, s => s.life = .cold
  | .a7, s => s.call = none ∧ s.life = .cold ∨ s.call = some .pulseReset ∧ s.life = .reset
  | .a8, s => s.life = .reset
  | .a9, s => s.call = none ∧ s.life = .reset ∨ s.call = some (.busRecv s.par.lit.helloLen) ∧ s.life = .awaitHello
  | .a10, s => s.life = if s.unit = none ∧ s.ur = none then .awaitHello else .queryInfo
  | .a11 _, s | .a12, s | .a13, s | .a14 _, s | .a15, s | .a16, s | .a17 _, s | .a18, s | .a19, s | .a20, s =>
    s.life = .queryInfo
  | .b1 at_ _, s => AbortsIn at_ s.life
  | .b2, s | .b3, s | .b4, s | .b5, s | .b6, s | .b7, s => AbortedLife s.life
  | .s1, s | .s2, s | .s3, s | .s4, s | .s5, s => s.life = .ready
  | .s6, s => s.life = .suspended
  | .u1, s | .u2, s | .u3, s | .u4, s | .u5, s | .u6, s | .u7, s | .u8, s => s.life = .suspended
  | .u9, s => s.life = .ready
  | .x2, s | .x3, s | .x4, s | .x5, s | .x6, s | .x7, s | .x8, s => AttachedLife s.life
  | .f1, s | .f2 _, s | .f3 _, s => s.life = .ready
  | .i1, s | .i2, s | .i3 _, s | .i4, s | .i5, s | .i6, s | .i6e _ _, s | .i7, s | .i8, s | .i9, s => s.life = .ready

/-- LIFE has the value that the step lists give it at the step in flight. -/
def LifeHeld (s : State) : Prop := ∀ l, s.step = some l → LifeAt l s

/-- The kind of value that a unit operation returns (R130 to R140). -/
def ReturnsKind : UnitOp → UnitVal → Prop
  | .fwVerRead, v => ∃ x, v = .fw x
  | .powerRead, v => ∃ b, v = .flag b
  | .fingerRead, v => ∃ b, v = .flag b
  | .packetRead, v => ∃ x, v = .stream x
  | .widthRead, v => ∃ x, v = .dim x
  | .heightRead, v => ∃ x, v = .dim x
  | .powerWrite _, v => v = .unit
  | .packetWrite _, v => v = .unit

/-- A unit operation runs at the step that calls it, and at T4 it has a received frame (R112). -/
def UnitHeld (s : State) : Prop :=
  ∀ op t, s.unit = some (op, t) →
    s.step = some (UnitOp.caller op) ∧ s.ur = none ∧ (t = .t4 → s.rx.isSome)

/-- A returned result stands at the step that called for it, and has the kind that step expects (R41). -/
def ResultHeld (s : State) : Prop :=
  ∀ r, s.ur = some r →
    ∃ op, s.step = some (UnitOp.caller op) ∧ s.unit = none ∧ s.call = none ∧ ∀ v, r = .ok v → ReturnsKind op v

/-- What is outstanding at step I4 of a DISPATCH is the receive of a whole interrupt frame (R240). -/
def FrameCall (s : State) : Prop := s.step = some .i4 → ∀ c, s.call = some c → c = .busRecv s.par.lit.rptLen

/-- The invariant of the block. -/
def Inv (s : State) : Prop :=
  (s.step = none → Quiet s ∧ s.call = none) ∧ (∀ l, s.step = some l → AtLabel l s) ∧ UnitHeld s ∧ ResultHeld s
    ∧ (s.fault = true ↔ s.faultCause = .normalizerDivZero) ∧ FrameCall s ∧ LifeHeld s

/-- The session registers and the resource, lifecycle, interrupt, fault and result registers: all that a unit
operation must leave alone (41_message_catalog.md, opening paragraph; R130). -/
abbrev SameRegisters (s t : State) : Prop :=
  t.par = s.par ∧ t.life = s.life ∧ t.ses = s.ses ∧ t.irqEn = s.irqEn ∧ t.irqPend = s.irqPend ∧ t.fault = s.fault
    ∧ t.faultCause = s.faultCause ∧ t.res = s.res ∧ t.lastResult = s.lastResult ∧ t.lastReport = s.lastReport
    ∧ t.hostReq = s.hostReq

/-- The fields of the model that are no registers of the block and that an operation of the sequencer leaves alone. -/
abbrev SameModel (s t : State) : Prop :=
  t.par = s.par ∧ t.hostWait = s.hostWait ∧ t.portLog = s.portLog

/-! ## The terms of the statements: answers, scripts and outcomes -/

/-- No other agent moves next. -/
abbrev NoneMoves (rest : List Input) : Prop := ∀ i, rest.head? = some i → i.isAsync = false

/-- No other agent moves next, and no turn is handed out: what comes next, if anything, is an answer. -/
abbrev Settled (rest : List Input) : Prop := ∀ i, rest.head? = some i → ∃ d r, i = .reply d r

/-- The moves that remain when the sequencer has taken the turn it was given. -/
def afterTurn : List Input → List Input
  | .turn _ :: rest => rest
  | rest => rest

/-- A DISPATCH starts at I1 (R66, R240, R272), the turn that was handed out taken, and runs. -/
def dispatchFrom (s : State) : Host.Outcome State Fault Refusal :=
  runOp { s with inbox := afterTurn s.inbox, step := some .i1, ur := none }

/-- A command may start: no call is outstanding, and no unit operation runs but its own, which stands at T1. -/
abbrev BusFree (i : Instr) (s : State) : Prop := s.call = none ∧ ∀ o u, s.unit = some (o, u) → o.instr = i ∧ u = .t1

/-- A unit operation has returned `r`: what it leaves behind (41_message_catalog.md R130: no register but TX, RX). -/
def returned (r : UnitResult) (rx : Option (List Byte)) (rest : List Input) (time : Nat) (events : List Event)
    (s : State) : State :=
  { s with
    unit := none, call := none, ur := some r, tx := none, rx := rx, inbox := rest, clock := s.clock + time,
    trace := s.trace ++ events }

/-- `i` is a `transact` of `frame` whose response is decoded by `value` (R112, R130): a wrong send count ends it
before the wait, a wrong receive count before the marker check, a wrong marker before the decoding. The instance has
the default literals of R10. -/
def Transacts (i : Instr) (frame : Params → List Byte) (value : Params → Byte → Byte → Byte → UnitVal) : Prop :=
  ∀ (s : State) (d1 d2 d3 : Nat) (rest : List Input), BusFree i s → s.par.lit = Config.lit →
    (∀ c : Int, c ≠ 4 → s.inbox = .reply d1 (.sent c) :: rest →
      exec i s = .next (returned (.err (.transportSend 4 c)) s.rx rest d1
        [.call (.busSend (frame s.par)) (.sent c)] s))
    ∧ (∀ (c : Int) (b : List Byte), c ≠ 4 →
      s.inbox = .reply d1 (.sent 4) :: .reply d2 .done :: .reply d3 (.received c b) :: rest →
      exec i s = .next (returned (.err (.transportRecv 4 c)) s.rx rest (d1 + (s.par.tSettleMs + d2) + d3)
        [.call (.busSend (frame s.par)) (.sent 4), .call (.wait s.par.tSettleMs) .done,
          .call (.busRecv 4) (.received c b)] s))
    ∧ (∀ (m r1 r2 r3 : Byte) (more : List Byte), NoneMoves rest →
      s.inbox = .reply d1 (.sent 4) :: .reply d2 .done :: .reply d3 (.received 4 (m :: r1 :: r2 :: r3 :: more)) :: rest →
      exec i s = .next (returned (if m = 0x52 then .ok (value s.par r1 r2 r3) else .err (.protocol m))
        (some [m, r1, r2, r3]) (afterTurn rest) (d1 + (s.par.tSettleMs + d2) + d3)
        [.call (.busSend (frame s.par)) (.sent 4), .call (.wait s.par.tSettleMs) .done,
          .call (.busRecv 4) (.received 4 [m, r1, r2, r3])] s))

/-- `i` is a write of `frame` (R130, R142): `send` alone, or `transact` with the response discarded. The instance has
the default literals of R10. -/
def Writes (i : Instr) (frame : Params → List Byte) : Prop :=
  (∀ (s : State) (c : Int) (d : Nat) (rest : List Input), BusFree i s → s.par.lit = Config.lit →
    s.par.writeExpectsResponse = false →
    s.inbox = .reply d (.sent c) :: rest →
    exec i s = .next (returned (if c = 4 then .ok .unit else .err (.transportSend 4 c)) s.rx rest d
      [.call (.busSend (frame s.par)) (.sent c)] s))
  ∧ (∀ (s : State) (d1 d2 d3 : Nat) (rest : List Input), BusFree i s → s.par.lit = Config.lit →
    s.par.writeExpectsResponse = true →
    (∀ c : Int, c ≠ 4 → s.inbox = .reply d1 (.sent c) :: rest →
      exec i s = .next (returned (.err (.transportSend 4 c)) s.rx rest d1
        [.call (.busSend (frame s.par)) (.sent c)] s))
    ∧ (∀ (c : Int) (b : List Byte), c ≠ 4 →
      s.inbox = .reply d1 (.sent 4) :: .reply d2 .done :: .reply d3 (.received c b) :: rest →
      exec i s = .next (returned (.err (.transportRecv 4 c)) s.rx rest (d1 + (s.par.tSettleMs + d2) + d3)
        [.call (.busSend (frame s.par)) (.sent 4), .call (.wait s.par.tSettleMs) .done,
          .call (.busRecv 4) (.received c b)] s))
    ∧ (∀ (m r1 r2 r3 : Byte) (more : List Byte), NoneMoves rest →
      s.inbox = .reply d1 (.sent 4) :: .reply d2 .done :: .reply d3 (.received 4 (m :: r1 :: r2 :: r3 :: more)) :: rest →
      exec i s = .next (returned (if m = 0x52 then .ok .unit else .err (.protocol m))
        (some [m, r1, r2, r3]) (afterTurn rest) (d1 + (s.par.tSettleMs + d2) + d3)
        [.call (.busSend (frame s.par)) (.sent 4), .call (.wait s.par.tSettleMs) .done,
          .call (.busRecv 4) (.received 4 [m, r1, r2, r3])] s)))

/-- The sequencer stands at a step of a top-level operation with this call outstanding and its answer next. -/
structure Answering (s : State) (l : Label) (c : Call) (d : Nat) (r : Reply) (rest : List Input) : Prop where
  step : s.step = some l
  unit : s.unit = none
  call : s.call = some c
  inbox : s.inbox = .reply d r :: rest

/-- A top-level operation has ended with `code` (R21, R37): what every `end(r)` leaves, with the time passed and the
events emitted. -/
def ended (code : ResultCode) (rx : Option (List Byte)) (rest : List Input) (time : Nat) (events : List Event)
    (s : State) : State :=
  { s with
    step := none, unit := none, call := none, ur := none, lastResult := code, rx := rx, inbox := rest,
    clock := s.clock + time, trace := s.trace ++ events }

/-- The answers to a `transact` that the chip answers with a good response (R112), delayed by `d n` and on. -/
def transactAnswers (d : Nat → Nat) (n : Nat) (r1 r2 r3 : Byte) : List Input :=
  [.reply (d n) (.sent 4), .reply (d (n + 1)) .done, .reply (d (n + 2)) (.received 4 [0x52, r1, r2, r3])]

/-- The events of that `transact` (R112). -/
def transactEvents (settle : Nat) (frame : List Byte) (r1 r2 r3 : Byte) : List Event :=
  [.call (.busSend frame) (.sent 4), .call (.wait settle) .done, .call (.busRecv 4) (.received 4 [0x52, r1, r2, r3])]

/-- How the bus answers one `transact` (R112): a wrong send count, a wrong receive count, or four bytes. -/
inductive Exchange where
  | sendFails (d : Nat) (c : Int)
  | recvFails (d1 d2 d3 : Nat) (c : Int) (b : List Byte)
  | replies (d1 d2 d3 : Nat) (m r1 r2 r3 : Byte)
  deriving DecidableEq, Repr

/-- The count that is called wrong is wrong (R110, R111). -/
def Exchange.Proper : Exchange → Prop
  | .sendFails _ c => c ≠ 4
  | .recvFails _ _ _ c _ => c ≠ 4
  | .replies .. => True

/-- The answers of the bus and of the settle wait, in their order. -/
def Exchange.answers : Exchange → List Input
  | .sendFails d c => [.reply d (.sent c)]
  | .recvFails d1 d2 d3 c b => [.reply d1 (.sent 4), .reply d2 .done, .reply d3 (.received c b)]
  | .replies d1 d2 d3 m r1 r2 r3 => [.reply d1 (.sent 4), .reply d2 .done, .reply d3 (.received 4 [m, r1, r2, r3])]

/-- The events of the `transact` of `frame`: a bad send ends it before the wait (R112). -/
def Exchange.events (settle : Nat) (frame : List Byte) : Exchange → List Event
  | .sendFails _ c => [.call (.busSend frame) (.sent c)]
  | .recvFails _ _ _ c b =>
    [.call (.busSend frame) (.sent 4), .call (.wait settle) .done, .call (.busRecv 4) (.received c b)]
  | .replies _ _ _ m r1 r2 r3 =>
    [.call (.busSend frame) (.sent 4), .call (.wait settle) .done, .call (.busRecv 4) (.received 4 [m, r1, r2, r3])]

/-- The time it takes (R300). -/
def Exchange.time (settle : Nat) : Exchange → Nat
  | .sendFails d _ => d
  | .recvFails d1 d2 d3 _ _ => d1 + (settle + d2) + d3
  | .replies d1 d2 d3 _ _ _ _ => d1 + (settle + d2) + d3

/-- What the `transact` returns: the response, or the failure of the first sub-step that fails (R112). -/
def Exchange.outcome : Exchange → Except Err (List Byte)
  | .sendFails _ c => .error (.transportSend 4 c)
  | .recvFails _ _ _ c _ => .error (.transportRecv 4 c)
  | .replies _ _ _ m r1 r2 r3 => if m = 0x52 then .ok [m, r1, r2, r3] else .error (.protocol m)

/-- RX after it: the four bytes of a good receive, and otherwise what it held before (R111, log 6). -/
def Exchange.rxAfter (rx : Option (List Byte)) : Exchange → Option (List Byte)
  | .replies _ _ _ m r1 r2 r3 => some [m, r1, r2, r3]
  | _ => rx

/-- How the bus answers one write (R142): a send alone, or, with WRITE_EXPECTS_RESPONSE, a `transact`. -/
inductive WriteExchange where
  | send (d : Nat) (c : Int)
  | transact (x : Exchange)
  deriving DecidableEq, Repr

/-- The form is the one that WRITE_EXPECTS_RESPONSE asks for (R142). -/
def WriteExchange.Proper (expectsResponse : Bool) : WriteExchange → Prop
  | .send _ _ => expectsResponse = false
  | .transact x => expectsResponse = true ∧ x.Proper

/-- The answers of the bus and of the settle wait, in their order. -/
def WriteExchange.answers : WriteExchange → List Input
  | .send d c => [.reply d (.sent c)]
  | .transact x => x.answers

/-- The events of the write of `frame`. -/
def WriteExchange.events (settle : Nat) (frame : List Byte) : WriteExchange → List Event
  | .send _ c => [.call (.busSend frame) (.sent c)]
  | .transact x => x.events settle frame

/-- The time it takes (R300); a response adds one settle wait (R301). -/
def WriteExchange.time (settle : Nat) : WriteExchange → Nat
  | .send d _ => d
  | .transact x => x.time settle

/-- The failure that the write returns, if it does not return Ok (R142): of its send, or of any sub-step of its
`transact`, whose response is discarded. -/
def WriteExchange.failure : WriteExchange → Option Err
  | .send _ c => if c = 4 then none else some (.transportSend 4 c)
  | .transact x => match x.outcome with | .ok _ => none | .error e => some e

/-- RX after it: a write that only sends leaves it alone (R111, log 6). -/
def WriteExchange.rxAfter (rx : Option (List Byte)) : WriteExchange → Option (List Byte)
  | .send _ _ => rx
  | .transact x => x.rxAfter rx

/-- The warning of a write that failed (R210, R214). -/
def WriteExchange.warning (code : DiagCode) (op : Op) (step : StepName) (w : WriteExchange) : List Event :=
  match w.failure with
  | none => []
  | some e => [.diag ⟨code, op, some step, .transport e⟩]

/-- POWER_ON or STREAMING_ON after the write that commands `value`: written exactly when the write returned Ok (R27,
R28). -/
def WriteExchange.register (value : Bool) (before : Option Bool) (w : WriteExchange) : Option Bool :=
  if w.failure = none then some value else before

/-- A diagnostic that is emitted unless all went well (R264). -/
def warnUnless (ok : Bool) (code : DiagCode) (op : Op) (step : StepName) (info : DiagInfo) : List Event :=
  if ok then [] else [.diag ⟨code, op, some step, info⟩]

/-- The release primitives of R207 and R218 for the resources held, in their order. -/
def releases (r : Resources) : List Call :=
  (if r.bus then [.busClose] else []) ++ (if r.irqCfg then [.releaseInterrupt] else [])
    ++ (if r.host then [.hostUnregister] else []) ++ (r.pinInt.toList.map Call.releasePin)
    ++ (r.pinRst.toList.map Call.releasePin)

/-- Session release and masking (R51, R33), as a DETACH or an attach abort leaves them. -/
def released (s : State) : State :=
  { s with
    irqEn := false, irqPend := false, ses := {}, lastReport := none
    res := { pins := s.res.pins && s.res.pinRst.isNone } }

/-- The sensor maxima that the normalizer reads (R32). -/
abbrev SensorMax (s : State) (nx ny : Nat) : Prop :=
  match s.par.sensorMaxSource with
  | .queried => s.ses.width.map BitVec.toNat = some nx ∧ s.ses.height.map BitVec.toNat = some ny
  | .config => s.ses.cfgSnx.map BitVec.toNat = some nx ∧ s.ses.cfgSny.map BitVec.toNat = some ny

/-- The screen maxima and the orientation flags that the normalizer reads (R31). -/
abbrev ScreenSetup (s : State) (smx smy : BitVec 16) (fx fy fxy : Bool) : Prop :=
  s.ses.cfgSmx = some smx ∧ s.ses.cfgSmy = some smy ∧ s.ses.cfgRx = some fx ∧ s.ses.cfgRy = some fy
    ∧ s.ses.cfgXy = some fxy

/-- The present points of a report, in slot order (R164). -/
def presentPoints (r : Report) : List (BitVec 12 × BitVec 12) := r.pts.filterMap TouchPoint.pos

/-- The stages of R181 to R183 on one point, written out: exact product, truncating division, exact subtraction,
then the exchange. -/
def screenPoint (smx smy nx ny : Nat) (fx fy fxy : Bool) (p : BitVec 12 × BitVec 12) : Int × Int :=
  let sx : Int := (p.1.toNat * smx / nx : Nat)
  let sy : Int := (p.2.toNat * smy / ny : Nat)
  let rx := if fx then (smx : Int) - sx else sx
  let ry := if fy then (smy : Int) - sy else sy
  if fxy then (ry, rx) else (rx, ry)

/-- The events of a report (R166): the release of a finger count of 0, or two events for each present point and the
sync. -/
def hostEvents (syncAfterRelease : Bool) (fc : BitVec 3) (pts : List (Int × Int)) : List HostEvent :=
  if fc = 0 then (if syncAfterRelease then [.touch false, .sync] else [.touch false])
  else pts.flatMap (fun q => [.position q.1 q.2, .touch true]) ++ [.sync]

/-- The ten frames of R84, byte 0 first. -/
def tenFrames : List (List Byte) :=
  [[0x53, 0x00, 0x00, 0x00], [0x53, 0x50, 0x00, 0x00], [0x54, 0x50, 0x08, 0x00], [0x54, 0x50, 0x00, 0x00],
   [0x53, 0x51, 0x00, 0x00], [0x54, 0x8E, 0x00, 0x00], [0x54, 0x8E, 0x01, 0x00], [0x53, 0x8E, 0x00, 0x00],
   [0x53, 0x63, 0x00, 0x00], [0x53, 0x60, 0x00, 0x00]]

/-- Every frame on the bus, sent or about to be answered, is one of `frames`. -/
def SendsOnly (frames : List (List Byte)) (s : State) : Prop :=
  (∀ f, s.call = some (.busSend f) → f ∈ frames) ∧ ∀ f r, Event.call (.busSend f) r ∈ s.trace → f ∈ frames

/-- The states in which each request other than DETACH is legal (R200). -/
def legalIn : Instr → List Life
  | .attach _ => [.cold]
  | .suspend => [.ready]
  | .resume => [.suspended]
  | .fingerQuery => [.ready]
  | _ => []

end Sys2Proof.Safety
end

