-- ==== Sys2Proof/Certificates/Slice0/Obligations.lean ====
section
/-! DEFINITION. The statements about the model, each taken from the rules that its docstring cites. A statement with
`lit = Config.lit` is about an instance whose protocol literals are the defaults of R10, the values it names (log 5). -/

open Sys2Proof Sys2Proof.Machine Sys2Proof.Safety

/-! ## Encoding (30_encoding.md) -/

/-- Decoding the encoding of a well-formed instruction gives it back, with every operand (R81 to R92). The hypothesis
keeps the on and off frames of the power write apart when the parameters put the power bit into paramLo. -/
def Obligations.DecodeEncode : Prop :=
  ∀ (p : Params) (i : Instr), p.lit = Config.lit → i.WellFormed = true →
    (p.pwrWriteByte = .paramLo → p.writeParamOther &&& 0x08 = 0) → decode p (encode p i) = .ok i

/-- What decodes is well-formed and encodes to the same bits at the same port, so no bit of an accepted frame is
dropped (R81 to R92); an argument of a request other than ATTACH is left out (R42, log 14). -/
def Obligations.EncodeDecode : Prop :=
  ∀ (p : Params) (w : Wire) (i : Instr), p.lit = Config.lit → decode p w = .ok i →
    (∀ q, w = .request q → q.code ≠ 0 → q.arg = none) → i.WellFormed = true ∧ encode p i = w

/-- A few words written out from the tables of R84 to R92 decode to the instructions they stand for. -/
def Obligations.SpecWords : Prop :=
  decode {} (.sent [0x53, 0x00, 0x00, 0x00]) = .ok .reqFwVer
    ∧ decode {} (.sent [0x54, 0x50, 0x08, 0x00]) = .ok .wrPowerOn
    ∧ decode {} (.sent [0x54, 0x8E, 0x01, 0x00]) = .ok .wrPacketOff
    ∧ decode {} (.reply [0x52, 0x00, 0x01, 0xF0]) = .ok (.resp 0x00 0x01 0xF0)
    ∧ decode {} (.reply [0x53, 0x63, 0x00, 0x80]) = .ok (.respBadMarker 0x53 0x63 0x00 0x80)
    ∧ decode {} (.hello [0x55, 0x55, 0x55, 0x55]) = .ok .hello
    ∧ decode {} (.hello [0x55, 0x55, 0x55, 0x54]) = .ok (.helloMismatch 0x55 0x55 0x55 0x54)
    ∧ decode {} (.irq (0x40 :: 0x41 :: List.replicate 23 0x00)) = .ok (.irqNoise 0x41 (List.replicate 23 0x00))
    ∧ decode {} (.irq (0x52 :: List.replicate 24 0x00)) = .ok (.irqOther 0x52 (List.replicate 24 0x00))
    ∧ decode {} (.request ⟨4, none⟩) = .ok .fingerQuery
    ∧ decode {} .line = .ok .irqLine

/-- R94: with the default parameters the decoder of chip-bound frames accepts exactly the ten frames of R84, and no
step puts another frame on the bus. The spec marks this rule as its own inference. -/
def Obligations.OnlyTableFramesSent : Prop :=
  (∀ f : List Byte, decode {} (.sent f) = .error .notSentByTcmt ↔ f ∉ tenFrames)
    ∧ ∀ s t : State, s.par = {} → SendsOnly tenFrames s → step s = .next t → SendsOnly tenFrames t

/-! ## The unit operations of the message catalog (40_transport.md, 41_message_catalog.md) -/

/-- R131: `FwVerRead()`, its frame, its value `(resp[2] << 8) | (resp[3] & 0xF0)` and its failures. That a failed
receive leaves RX as it was is the model's reading (log 6), and so is that a command runs wherever the bus is free
(log 15). -/
def Obligations.FwVerReadResult : Prop :=
  Transacts .reqFwVer (fun p => [0x53, 0x00, p.readFwVer.hi, p.readFwVer.lo])
    (fun _ _ r2 r3 => .fw (BitVec.ofNat 16 ((r2.toNat <<< 8) ||| (r3.toNat &&& 0xF0))))

/-- R133: `PowerRead()`: bit 3 of resp[PWR_READ_BYTE]. The model's readings: RX after a failed receive (log 6), and any
state with a free bus (log 15). -/
def Obligations.PowerReadResult : Prop :=
  Transacts .reqPower (fun p => [0x53, 0x50, p.readPower.hi, p.readPower.lo])
    (fun p r1 r2 r3 =>
      let b := match p.pwrReadByte with | .r1 => r1 | .r2 => r2 | .r3 => r3
      .flag ((b.toNat >>> 3) &&& 1 == 1))

/-- R135: `FingerRead()`: resp[2] is not 0. The model's readings: RX after a failed receive (log 6), and any state with
a free bus (log 15). -/
def Obligations.FingerReadResult : Prop :=
  Transacts .reqFinger (fun p => [0x53, 0x51, p.readFinger.hi, p.readFinger.lo]) (fun _ _ r2 _ => .flag (r2 != 0))

/-- R137: `PacketRead()`: 0x00 is On, 0x01 is Off, anything else Unrecognised. The model's readings: RX after a failed
receive (log 6), and any state with a free bus (log 15). -/
def Obligations.PacketReadResult : Prop :=
  Transacts .reqPacket (fun p => [0x53, 0x8E, p.readPacket.hi, p.readPacket.lo])
    (fun p r1 r2 r3 =>
      let v := match p.pktReadByte with | .r1 => r1 | .r2 => r2 | .r3 => r3
      .stream (if v = 0x00 then .on else if v = 0x01 then .off else .unrecognised v))

/-- R139 and R140: `WidthRead()` and `HeightRead()`: `((resp[3] & 0xF0) << 4) | resp[2]` of the one or the other.
The model's readings: RX after a failed receive (log 6), and any state with a free bus (log 15). -/
def Obligations.DimensionReadResults : Prop :=
  let value : Params → Byte → Byte → Byte → UnitVal :=
    fun _ _ r2 r3 => .dim (BitVec.ofNat 12 (((r3.toNat &&& 0xF0) <<< 4) ||| r2.toNat))
  Transacts .reqWidth (fun p => [0x53, 0x63, p.readWidth.hi, p.readWidth.lo]) value
    ∧ Transacts .reqHeight (fun p => [0x53, 0x60, p.readHeight.hi, p.readHeight.lo]) value

/-- R132 and R142: `PowerWrite(on)`: the frame `[54 50 00 p]`, p being WRITE_PARAM_OTHER, with the power bit put into
byte PWR_WRITE_BYTE, sent alone or as a `transact` whose response is discarded. The model's readings: RX after a failed
receive (log 6), and any state with a free bus (log 15). -/
def Obligations.PowerWriteResult : Prop :=
  let frame := fun (on : Bool) (p : Params) =>
    let bit : Byte := if on then 0x08 else 0x00
    match p.pwrWriteByte with
    | .command => [0x54, 0x50 ||| bit, 0x00, p.writeParamOther]
    | .paramHi => [0x54, 0x50, bit, p.writeParamOther]
    | .paramLo => [0x54, 0x50, 0x00, p.writeParamOther ||| bit]
  Writes .wrPowerOn (frame true) ∧ Writes .wrPowerOff (frame false)

/-- R136 and R142: `PacketWrite(on)`: 0x00 for on, 0x01 for off, in byte PKT_WRITE_BYTE. The model's readings: RX after
a failed receive (log 6), and any state with a free bus (log 15). -/
def Obligations.PacketWriteResult : Prop :=
  let frame := fun (on : Bool) (p : Params) =>
    let v : Byte := if on then 0x00 else 0x01
    match p.pktWriteByte with
    | .paramHi => [0x54, 0x8E, v, p.writeParamOther]
    | .paramLo => [0x54, 0x8E, 0x00, v]
  Writes .wrPacketOn (frame true) ∧ Writes .wrPacketOff (frame false)

/-- No catalog operation writes a register of the block other than TX and RX, whatever the bus answers (opening
paragraph of 41_message_catalog.md), in any state and for each of the ten commands. -/
def Obligations.CatalogFrame : Prop :=
  ∀ (op : UnitOp) (s t : State), exec op.instr s = .next t → SameRegisters s t ∧ t.step = s.step ∧ t.hostWait = s.hostWait

/-- R112, T3 and T4, and R93 a: a response whose byte 0 is 0x52 is returned to the caller, decoded for the command that
was sent; any other byte 0 is a Protocol failure that carries it. RX holds the bytes either way. -/
def Obligations.ResponseReceived : Prop :=
  ∀ (s : State) (op : UnitOp) (d : Nat) (m r1 r2 r3 : Byte) (more : List Byte) (rest : List Input),
    s.par.lit = Config.lit → s.call = some (.busRecv 4) → s.unit = some (op, .t3) → NoneMoves rest →
    s.inbox = .reply d (.received 4 (m :: r1 :: r2 :: r3 :: more)) :: rest →
    let i : Instr := if m = 0x52 then .resp r1 r2 r3 else .respBadMarker m r1 r2 r3
    exec i s = .next
      { s with
        call := none, unit := none
        ur := some (if m = 0x52 then .ok (unitValue s.par op [m, r1, r2, r3]) else .err (.protocol m))
        rx := some [m, r1, r2, r3], inbox := afterTurn rest, clock := s.clock + d
        trace := s.trace ++ [.call (.busRecv 4) (.received 4 [m, r1, r2, r3])] }

/-- R68 b and R65 c: a command that finds the bus busy, with a call of a step outstanding or with the unit operation of
another command in flight, starts no transfer, and a frame of the chip that no receive waits for stays with the chip:
neither changes anything. That such an instruction waits rather than stops is the model's choice, log 15. -/
def Obligations.OutOfTurnFramesWait : Prop :=
  (∀ (op : UnitOp) (s : State),
    (s.unit = none ∧ s.call.isSome ∨ ∃ o u, s.unit = some (o, u) ∧ o.frame s.par ≠ op.frame s.par) →
    exec op.instr s = .next s)
  ∧ ∀ (i : Instr) (s : State),
    (match i with
      | .resp _ _ _ | .respBadMarker _ _ _ _ => s.awaitsResponse = false
      | .hello | .helloMismatch _ _ _ _ => s.awaitsHello = false
      | .irqReport _ _ | .irqNoise _ _ | .irqCalib _ | .irqHello _ | .irqOther _ _ => s.awaitsIrqFrame = false
      | _ => False) →
    exec i s = .next s

/-! ## The hello (44_lifecycle.md R203) -/

/-- R86 and R203, A9: a good hello emits no diagnostic, any other four bytes a HELLO_MISMATCH; both go on at A10. -/
def Obligations.HelloReceived : Prop :=
  ∀ (s : State) (d : Nat) (b0 b1 b2 b3 : Byte) (more : List Byte) (rest : List Input),
    s.par.lit = Config.lit → Answering s .a9 (.busRecv 4) d (.received 4 (b0 :: b1 :: b2 :: b3 :: more)) rest →
    let i : Instr := if [b0, b1, b2, b3] = [0x55, 0x55, 0x55, 0x55] then .hello else .helloMismatch b0 b1 b2 b3
    exec i s = .next
      { s with
        call := none, step := some .a10, ur := none, rx := some [b0, b1, b2, b3], inbox := rest, clock := s.clock + d
        trace := s.trace ++ .call (.busRecv 4) (.received 4 [b0, b1, b2, b3])
          :: (if [b0, b1, b2, b3] = [0x55, 0x55, 0x55, 0x55] then []
              else [.diag ⟨.helloMismatch, .attach, some .a9, .bytes [b0, b1, b2, b3]⟩]) }

/-! ## The interrupt dispatcher (45_dispatcher.md) -/

/-- R243: a NOISE frame gives one diagnostic, noisy exactly when byte 1 is 0x41, and nothing else but RX. -/
def Obligations.NoiseDispatched : Prop :=
  ∀ (s : State) (d : Nat) (flag : Byte) (tail more : List Byte) (rest : List Input),
    (Instr.irqNoise flag tail).WellFormed = true → Settled rest → s.par.lit = Config.lit →
    Answering s .i4 (.busRecv 25) d (.received 25 (0x40 :: flag :: tail ++ more)) rest →
    exec (.irqNoise flag tail) s = .next (ended .ok (some (0x40 :: flag :: tail)) rest d
      [.call (.busRecv 25) (.received 25 (0x40 :: flag :: tail)),
        .diag ⟨.noise, .dispatch, some .i7, .noise (flag == 0x41) flag⟩] s)

/-- R244: a CALIB frame gives one diagnostic without payload; bytes 1 to 24 are ignored. -/
def Obligations.CalibDispatched : Prop :=
  ∀ (s : State) (d : Nat) (tail more : List Byte) (rest : List Input),
    (Instr.irqCalib tail).WellFormed = true → Settled rest → s.par.lit = Config.lit →
    Answering s .i4 (.busRecv 25) d (.received 25 (0x66 :: tail ++ more)) rest →
    exec (.irqCalib tail) s = .next (ended .ok (some (0x66 :: tail)) rest d
      [.call (.busRecv 25) (.received 25 (0x66 :: tail)), .diag ⟨.calib, .dispatch, some .i8, .nothing⟩] s)

/-- R245: a HELLO in a DISPATCH gives one diagnostic, whatever its other 24 bytes are. -/
def Obligations.UnsolicitedHelloDispatched : Prop :=
  ∀ (s : State) (d : Nat) (tail more : List Byte) (rest : List Input),
    (Instr.irqHello tail).WellFormed = true → Settled rest → s.par.lit = Config.lit →
    Answering s .i4 (.busRecv 25) d (.received 25 (0x55 :: tail ++ more)) rest →
    exec (.irqHello tail) s = .next (ended .ok (some (0x55 :: tail)) rest d
      [.call (.busRecv 25) (.received 25 (0x55 :: tail)),
        .diag ⟨.unsolicitedHello, .dispatch, some .i9, .nothing⟩] s)

/-- R241: a frame of any other opcode ends the DISPATCH with OK and changes no state but RX. -/
def Obligations.UnknownOpcodeIgnored : Prop :=
  ∀ (s : State) (d : Nat) (op : Byte) (tail more : List Byte) (rest : List Input),
    (Instr.irqOther op tail).WellFormed = true → Settled rest → s.par.lit = Config.lit →
    Answering s .i4 (.busRecv 25) d (.received 25 (op :: tail ++ more)) rest →
    exec (.irqOther op tail) s = .next (ended .ok (some (op :: tail)) rest d
      [.call (.busRecv 25) (.received 25 (op :: tail))] s)

/-- R242, R166 and R180: a REPORT frame is recorded in LAST_REPORT, and its events, all computed from the present
points by scale, revert and exchange, are emitted one by one in order. The host's answers to them come in `ds`. -/
def Obligations.ReportDispatched : Prop :=
  ∀ (s : State) (d : Nat) (b1 : Byte) (tail more : List Byte) (ds : List Nat) (rest : List Input)
    (smx smy : BitVec 16) (nx ny : Nat) (fx fy fxy : Bool),
    (Instr.irqReport b1 tail).WellFormed = true → Settled rest → s.par.lit = Config.lit →
    ScreenSetup s smx smy fx fy fxy → SensorMax s nx ny →
    let frame : List Byte := 0x5D :: b1 :: tail
    let report := decodeReport s.par frame
    let events := hostEvents s.par.syncAfterRelease report.fc
      ((presentPoints report).map (screenPoint smx.toNat smy.toNat nx ny fx fy fxy))
    (presentPoints report ≠ [] → nx ≠ 0 ∧ ny ≠ 0) → ds.length = events.length →
    Answering s .i4 (.busRecv 25) d (.received 25 (frame ++ more)) (ds.map (fun e => .reply e .done) ++ rest) →
    exec (.irqReport b1 tail) s = .next (ended .ok (some frame) rest (d + ds.sum)
      (.call (.busRecv 25) (.received 25 frame) :: events.map (fun e => .call (.hostEvent e) .done))
      { s with lastReport := some report })

/-- R186 and R266: a present point with a sensor maximum of 0 on either axis sets the sticky fault; the frame is
recorded in LAST_REPORT, one diagnostic is emitted and no host event. IRQ_PEND is left as it was: an assertion latched
during this DISPATCH stays latched, and starts nothing while FAULT is set (the model's reading, log 9). -/
def Obligations.ReportFaults : Prop :=
  ∀ (s : State) (d : Nat) (b1 : Byte) (tail more : List Byte) (rest : List Input) (nx ny : Nat),
    (Instr.irqReport b1 tail).WellFormed = true → Settled rest → s.par.lit = Config.lit → SensorMax s nx ny →
    (nx = 0 ∨ ny = 0) →
    let frame : List Byte := 0x5D :: b1 :: tail
    presentPoints (decodeReport s.par frame) ≠ [] →
    Answering s .i4 (.busRecv 25) d (.received 25 (frame ++ more)) rest →
    exec (.irqReport b1 tail) s = .next (ended .faulted (some frame) rest d
      [.call (.busRecv 25) (.received 25 frame),
        .diag ⟨.fault, .dispatch, some .i6, .cause .normalizerDivZero⟩]
      { s with lastReport := some (decodeReport s.par frame), fault := true, faultCause := .normalizerDivZero })

/-- R34, R66 and R271 b: an assertion that finds the fault set, with the latch set or not (log 9), or the interrupt
masked, is discarded with no effect; one
that arrives during an operation, or while a request is pending, sets the latch and starts nothing, and one that finds
the latch set coalesces into it. -/
def Obligations.AssertionLatch : Prop :=
  ∀ (s : State) (rest : List Input), s.inbox = .irq :: rest →
    (s.fault = true ∨ (s.irqPend = false ∧ s.irqEn = false) → exec .irqLine s = .next { s with inbox := rest })
    ∧ (s.irqEn = true → s.fault = false → (s.atRest = false ∨ s.hostReq.isSome) →
      exec .irqLine s = .next { s with inbox := rest, irqPend := true })

/-- R240, R241 and R246: an assertion that finds the sequencer at rest starts its DISPATCH. A false acknowledge ends it
before any bus traffic when it gates the receive; a failed receive is swallowed; and a frame of an unknown opcode is
received and ignored. Each ends with OK and clears IRQ_PEND. That one step both latches the assertion (R34) and runs
the DISPATCH that the arbiter then starts (R66) is the model's reading of the row (log 22). -/
def Obligations.AssertionDispatched : Prop :=
  ∀ (s : State) (d1 d2 : Nat) (acked : Bool) (rest : List Input),
    s.par.lit = Config.lit → s.atRest = true → s.hostReq = none → s.irqEn = true → s.fault = false →
    (acked = false → s.par.ackGatesReceive = true → Settled rest →
      s.inbox = .irq :: .reply d1 (.acked false) :: rest →
      exec .irqLine s = .next (ended .ok none rest d1
        [.call .readAndAck (.acked false), .diag ⟨.irqNotPending, .dispatch, some .i3, .nothing⟩]
        { s with irqPend := false }))
    ∧ ((acked = true ∨ s.par.ackGatesReceive = false) → ∀ (c : Int) (b : List Byte), c ≠ 25 →
      s.inbox = .irq :: .reply d1 (.acked acked) :: .reply d2 (.received c b) :: rest →
      exec .irqLine s = .next (ended .ok none rest (d1 + d2)
        [.call .readAndAck (.acked acked), .call (.busRecv 25) (.received c b),
          .diag ⟨.irqRecvFail, .dispatch, some .i4, .transport (.transportRecv 25 c)⟩]
        { s with irqPend := false }))
    ∧ ((acked = true ∨ s.par.ackGatesReceive = false) → ∀ (op : Byte) (tail more : List Byte),
      (Instr.irqOther op tail).WellFormed = true → Settled rest →
      s.inbox = .irq :: .reply d1 (.acked acked) :: .reply d2 (.received 25 (op :: tail ++ more)) :: rest →
      exec .irqLine s = .next (ended .ok (some (op :: tail)) rest (d1 + d2)
        [.call .readAndAck (.acked acked), .call (.busRecv 25) (.received 25 (op :: tail))]
        { s with irqPend := false }))

/-- R226: a DISPATCH in flight writes only IRQ_PEND, RX, LAST_REPORT, LAST_RESULT, FAULT and FAULT_CAUSE: no step of
it writes a session register, a resource, LIFE, IRQ_EN or the request port, when the sequencer or its answer moves.
The spec marks this rule as its own inference. -/
def Obligations.DispatchWrites : Prop :=
  ∀ (l : Label) (s t : State), s.step = some l → l.name.op = .dispatch → s.unit = none → tick s = .moved t →
    t.ses = s.ses ∧ t.res = s.res ∧ t.life = s.life ∧ t.irqEn = s.irqEn ∧ t.hostReq = s.hostReq ∧ t.tx = s.tx
      ∧ t.par = s.par

/-! ## The lifecycle (44_lifecycle.md) -/

/-- R66, R42 and R200: the two halves of the arbiter's taking of a request. The port half takes the pending request out
of HOST_REQ and changes no register beside it; a request that does not stand in the port leaves the port as it is. The
other half clears RX and enters the operation at its step 0. -/
def Obligations.ArbiterTakesRequest : Prop :=
  ∀ (i : Instr) (s : State),
    (s.hostReq.map decodeRequest = some i → (s.takePort i).hostReq = none)
    ∧ (s.hostReq.map decodeRequest ≠ some i → s.takePort i = s)
    ∧ (let t := s.takePort i
       t.step = s.step ∧ t.unit = s.unit ∧ t.call = s.call ∧ t.life = s.life ∧ t.ses = s.ses ∧ t.irqEn = s.irqEn
        ∧ t.irqPend = s.irqPend ∧ t.fault = s.fault ∧ t.faultCause = s.faultCause ∧ t.res = s.res
        ∧ t.lastResult = s.lastResult ∧ t.lastReport = s.lastReport ∧ t.tx = s.tx ∧ t.rx = s.rx
        ∧ t.trace = s.trace ∧ t.clock = s.clock ∧ t.par = s.par)
    ∧ ∀ l, s.takeRequest l = { s with rx := none, step := some l, ur := none }

/-- R200: a reserved request code completes with BAD_REQUEST and no other effect, in one atomic action. RX is cleared
as for every request that is taken (log 7). -/
def Obligations.ReservedRequests : Prop :=
  ∀ (i : Instr) (s : State), i = .reserved5 ∨ i = .reserved6 ∨ i = .reserved7 → s.atRest = true →
    exec i s = .next
      { s.takePort i with rx := none, lastResult := .badRequest, trace := s.trace ++ [.respond .badRequest none] }

/-- R200 and R271 d: a request that finds FAULT set, or else a LIFE in which it is not legal, completes with FAULTED or
BAD_STATE at step 0 and changes nothing but LAST_RESULT and the cleared RX. -/
def Obligations.RejectedRequests : Prop :=
  ∀ (i : Instr) (s : State), legalIn i ≠ [] → s.atRest = true → Settled (s.takePort i).inbox →
    (s.fault = true ∨ s.life ∉ legalIn i) →
    let code : ResultCode := if s.fault then .faulted else .badState
    exec i s = .next (ended code none (s.takePort i).inbox 0 [.respond code none] (s.takePort i))

/-- R42 and R72: a host request that finds an operation in flight waits: where it stands in the port already it stays
there, a free port takes it, and where the port is full or an earlier request waits, the host waits. Nothing else
changes, so nothing of the operation in flight does. That the waiting host's requests stand in a list is the model's
choice (log 8). -/
def Obligations.BusyRequestsWait : Prop :=
  ∀ (q : HostReq) (s : State), s.atRest = false → (q.code ≠ 0 → q.arg = none) →
    exec (decodeRequest q) s = .next
      (if s.hostReq.map decodeRequest = some (decodeRequest q) then s
       else if s.hostReq = none ∧ s.hostWait = [] then { s with hostReq := some q }
       else { s with hostWait := s.hostWait ++ [q] })

/-- R282: `Valid(cfg)`: the record is present, every required field is present and every integer is in 0..65535, the
sensor maxima too where they are present but not required; the screen maxima lie in the range of SCREEN_W, which is
0..65535 by default. The validated record holds the same values in register widths. -/
def Obligations.ValidRecord : Prop :=
  ∀ (p : Params) (cfg : Option CfgRecord) (v : ValidCfg),
    validate p cfg = some v ↔
      ∃ c, cfg = some c ∧ c.smx = some (v.smx.toNat : Int) ∧ c.smy = some (v.smy.toNat : Int)
        ∧ v.smx.toNat < 2 ^ p.lit.screenW ∧ v.smy.toNat < 2 ^ p.lit.screenW ∧ c.rx = some v.rx ∧ c.ry = some v.ry ∧ c.xy = some v.xy ∧ c.irqMode = some v.irqMode
        ∧ (match p.sensorMaxSource, v.sensor with
            | .queried, none =>
              (∀ n, c.snx = some n → 0 ≤ n ∧ n ≤ 65535) ∧ ∀ n, c.sny = some n → 0 ≤ n ∧ n ≤ 65535
            | .config, some (x, y) => c.snx = some (x.toNat : Int) ∧ c.sny = some (y.toNat : Int)
            | _, _ => False)

/-- R201 A1 and R294: an ATTACH with an invalid record completes with CONFIG; nothing is written or acquired and LIFE
stays Cold. -/
def Obligations.AttachInvalidRecord : Prop :=
  ∀ (cfg : Option CfgRecord) (s : State), s.atRest = true → s.life = .cold → s.fault = false →
    validate s.par cfg = none → Settled (s.takePort (.attach cfg)).inbox →
    exec (.attach cfg) s = .next (ended .config none (s.takePort (.attach cfg)).inbox 0
      [.diag ⟨.configFail, .attach, some .a1, .nothing⟩, .respond .config none] (s.takePort (.attach cfg)))

/-- R201 and R206 a: the whole of a successful ATTACH, for every answer of the chip: the acquisitions, the pulse, the
hello, three queries two gaps apart, the registration, the interrupt enable; and the time of R301. -/
def Obligations.AttachSucceeds : Prop :=
  ∀ (cfg : Option CfgRecord) (v : ValidCfg) (s : State) (d : Nat → Nat) (h1 h2 : Handle)
    (b0 b1 b2 b3 f1 f2 f3 w1 w2 w3 g1 g2 g3 : Byte) (rest : List Input),
    s.atRest = true → s.life = .cold → s.fault = false → validate s.par cfg = some v → Settled rest →
    s.par.lit = Config.lit →
    (s.takePort (.attach cfg)).inbox = List.flatten
      [[.reply (d 0) (.pin (some h1)), .reply (d 1) (.pin (some h2)), .reply (d 2) .done, .reply (d 3) (.opened true),
        .reply (d 4) .done, .reply (d 5) .done, .reply (d 6) (.received 4 [b0, b1, b2, b3])],
       transactAnswers d 7 f1 f2 f3, [.reply (d 10) .done],
       transactAnswers d 11 w1 w2 w3, [.reply (d 14) .done],
       transactAnswers d 15 g1 g2 g3, [.reply (d 18) (.registered true)], rest] →
    let settle := s.par.tSettleMs
    let good : Bool := [b0, b1, b2, b3] == [0x55, 0x55, 0x55, 0x55]
    exec (.attach cfg) s = .next
      (ended .ok (some [0x52, g1, g2, g3]) rest
        (s.par.tRstLowMs + s.par.tRstHighMs + s.par.tHelloWaitMs + 3 * settle + 2 * s.par.tQGapMs
          + ((List.range 19).map d).sum)
        (List.flatten
          [[.call (.requestPin .reset) (.pin (some h1)), .call (.requestPin .int) (.pin (some h2)),
            .call (.configureInterrupt v.irqMode) .done, .call .busOpen (.opened true), .call .pulseReset .done,
            .call (.wait s.par.tHelloWaitMs) .done, .call (.busRecv 4) (.received 4 [b0, b1, b2, b3])],
           warnUnless good .helloMismatch .attach .a9 (.bytes [b0, b1, b2, b3]),
           transactEvents settle [0x53, 0x00, s.par.readFwVer.hi, s.par.readFwVer.lo] f1 f2 f3,
           [.call (.wait s.par.tQGapMs) .done],
           transactEvents settle [0x53, 0x63, s.par.readWidth.hi, s.par.readWidth.lo] w1 w2 w3,
           [.call (.wait s.par.tQGapMs) .done],
           transactEvents settle [0x53, 0x60, s.par.readHeight.hi, s.par.readHeight.lo] g1 g2 g3,
           [.call (.hostRegister v.smx v.smy) (.registered true), .respond .ok none]])
        { s.takePort (.attach cfg) with
          life := .ready, irqEn := true, tx := none
          res := { pins := true, irqCfg := true, bus := true, host := true, pinRst := some h1, pinInt := some h2 }
          ses :=
            { s.ses with
              fwVersion := some (fwVersionOf [0x52, f1, f2, f3]), width := some (dimensionOf [0x52, w1, w2, w3])
              height := some (dimensionOf [0x52, g1, g2, g3])
              cfgSmx := some v.smx, cfgSmy := some v.smy, cfgRx := some v.rx, cfgRy := some v.ry, cfgXy := some v.xy
              cfgIrqMode := some v.irqMode, cfgSnx := (v.sensor.map Prod.fst).or s.ses.cfgSnx
              cfgSny := (v.sensor.map Prod.snd).or s.ses.cfgSny } })

/-- R201, R202, R203 and R264: each failing answer of ATTACH enters the abort path at B1 with its step and cause, but
for the hello receive when HELLO_RECV_FATAL is false: that one emits HELLO_RECV_FAIL and goes on at A10. That a failed
receive leaves RX as it was is the model's reading (log 6). -/
def Obligations.AttachFailureAborts : Prop :=
  ∀ (s : State) (d : Nat) (rest : List Input), s.hostCanWrite = false →
    (∀ (l : Label) (c : Call) (r : Reply) (step_ : StepName) (cause : Cause), Answering s l c d r rest →
      ((l, c, r, step_, cause) = (.a3, .requestPin .reset, .pin none, .a3, .pin)
        ∨ (l, c, r, step_, cause) = (.a4, .requestPin .int, .pin none, .a4, .pin)
        ∨ (l, c, r, step_, cause) = (.a6, .busOpen, .opened false, .a6, .bus)
        ∨ (∃ (x : Int) (b : List Byte), x ≠ 4 ∧ s.par.helloRecvFatal = true ∧ s.par.lit = Config.lit ∧ (l, c, r, step_, cause) =
            (.a9, .busRecv 4, .received x b, .a9, .transport (.transportRecv 4 x)))
        ∨ (∃ x y, (l, c, r, step_, cause) = (.a18, .hostRegister x y, .registered false, .a18, .host))) →
      step s = .next
        { s with
          step := some (.b1 step_ cause), call := none, ur := none, inbox := rest, clock := s.clock + d
          trace := s.trace ++ [.call c r] })
    ∧ (∀ (x : Int) (b : List Byte), x ≠ 4 → s.par.helloRecvFatal = false → s.par.lit = Config.lit →
      Answering s .a9 (.busRecv 4) d (.received x b) rest →
      step s = .next
        { s with
          step := some .a10, call := none, ur := none, inbox := rest, clock := s.clock + d
          trace := s.trace ++ [.call (.busRecv 4) (.received x b),
            .diag ⟨.helloRecvFail, .attach, some .a9, .transport (.transportRecv 4 x)⟩] })
    ∧ (∀ (l : Label) (e : Err), (l = .a10 ∨ l = .a13 ∨ l = .a16) → s.step = some l → s.unit = none → s.call = none →
      s.ur = some (.err e) → Settled s.inbox →
      step s = .next { s with step := some (.b1 l.name (.transport e)), ur := none })

/-- R207: the abort path masks the interrupt, emits INIT_FAIL with step and cause, releases exactly what is held in
DETACH's order, clears the session and ends in Detached with INIT. That the session which is cleared takes CFG_SNX,
CFG_SNY and LAST_REPORT with it is the model's reading (log 12). -/
def Obligations.AbortReleasesAll : Prop :=
  ∀ (s : State) (at_ : StepName) (cause : Cause) (ds : List Nat) (rest : List Input),
    s.step = some (.b1 at_ cause) → s.unit = none → s.call = none → s.ur = none → Settled rest →
    ds.length = (releases s.res).length → s.inbox = ds.map (fun e => .reply e .done) ++ rest →
    runOp s = .next (ended .init s.rx rest ds.sum
      (.diag ⟨.initFail, .attach, some .b1, .abort at_ cause⟩
        :: (releases s.res).map (fun c => .call c .done) ++ [.respond .init none])
      { released s with life := .detached })

/-- R206: an ATTACH that was accepted in Cold and has ended is in one of three states: Ready with everything held,
Cold with nothing written, or Detached with nothing held. The spec marks this rule as its own inference; that nothing
held means CFG_SNX, CFG_SNY and LAST_REPORT hold ⊥ too is the model's reading (log 12). -/
def Obligations.AttachOutcomes : Prop :=
  ∀ (cfg : Option CfgRecord) (s t : State), Inv s → s.atRest = true → s.life = .cold → s.fault = false →
    exec (.attach cfg) s = .next t → t.step = none →
    t.life = .ready ∧ t.lastResult = .ok ∧ AllHeld t ∧ t.irqEn = true
      ∨ t.life = .cold ∧ t.lastResult = .config ∧ t.ses = s.ses ∧ t.res = s.res ∧ t.irqEn = s.irqEn
      ∨ t.life = .detached ∧ t.lastResult = .init ∧ NoneHeld t

/-- R210: the whole of a SUSPEND: masked first, then streaming off, then power off, each failure logged and the sequence
going on. Each write is a send, or a `transact` with WRITE_EXPECTS_RESPONSE (R142), answered in any way; STREAMING_ON and
POWER_ON are written exactly when their write returned Ok (R27, R28), and each `transact` adds its settle wait (R301). It
ends in Suspended with OK. RX after a failed receive is the model's reading (log 6). -/
def Obligations.SuspendCompletes : Prop :=
  ∀ (s : State) (w1 w2 : WriteExchange) (d : Nat) (rest : List Input),
    s.atRest = true → s.life = .ready → s.fault = false → Settled rest → s.par.lit = Config.lit →
    w1.Proper s.par.writeExpectsResponse → w2.Proper s.par.writeExpectsResponse →
    (s.takePort .suspend).inbox = List.flatten [w1.answers, [.reply d .done], w2.answers, rest] →
    let settle := s.par.tSettleMs
    exec .suspend s = .next
      (ended .ok (w2.rxAfter (w1.rxAfter none)) rest (w1.time settle + (s.par.tSuspGapMs + d) + w2.time settle)
        (List.flatten
          [w1.events settle (UnitOp.frame s.par (.packetWrite false)),
           w1.warning .suspStreamFail .suspend .s2,
           [.call (.wait s.par.tSuspGapMs) .done],
           w2.events settle (UnitOp.frame s.par (.powerWrite false)),
           w2.warning .suspPowerFail .suspend .s4,
           [.respond .ok none]])
        { s.takePort .suspend with
          life := .suspended, irqEn := false, irqPend := false, tx := none
          ses :=
            { s.ses with
              streamingOn := w1.register false s.ses.streamingOn
              powerOn := w2.register false s.ses.powerOn } })

/-- R214 and R215: the whole of a RESUME, for any two writes and any two exchanges of the read-backs. Each write is a send,
or a `transact` with WRITE_EXPECTS_RESPONSE (R142); POWER_ON and STREAMING_ON are written exactly when their write
returned Ok (R27, R28). A read-back that is answered goes into its register, with a warning when it is not the commanded
value; one that fails, at its send, its receive or its marker, is a warning and leaves its register as it was. RESUME ends
in Ready with OK and the interrupt enabled. RX after a failed receive is the model's reading (log 6). -/
def Obligations.ResumeCompletes : Prop :=
  ∀ (s : State) (w1 w2 : WriteExchange) (d1 d2 : Nat) (x1 x2 : Exchange) (rest : List Input),
    s.atRest = true → s.life = .suspended → s.fault = false → Settled rest → s.par.lit = Config.lit →
    w1.Proper s.par.writeExpectsResponse → w2.Proper s.par.writeExpectsResponse → x1.Proper → x2.Proper →
    (s.takePort .resume).inbox = List.flatten
      [w1.answers, [.reply d1 .done], x1.answers, w2.answers, [.reply d2 .done], x2.answers, rest] →
    let settle := s.par.tSettleMs
    exec .resume s = .next
      (ended .ok (x2.rxAfter (w2.rxAfter (x1.rxAfter (w1.rxAfter none)))) rest
        (w1.time settle + (s.par.tResumeMs + d1) + x1.time settle + w2.time settle + (s.par.tResumeMs + d2)
          + x2.time settle)
        (List.flatten
          [w1.events settle (UnitOp.frame s.par (.powerWrite true)),
           w1.warning .resPowerFail .resume .u1,
           [.call (.wait s.par.tResumeMs) .done],
           x1.events settle (UnitOp.frame s.par .powerRead),
           (match x1.outcome with
            | .ok f => warnUnless (powerOf s.par f) .powerRbMismatch .resume .u3 (.power (powerOf s.par f))
            | .error e => [.diag ⟨.powerRbFail, .resume, some .u3, .transport e⟩]),
           w2.events settle (UnitOp.frame s.par (.packetWrite true)),
           w2.warning .resStreamFail .resume .u4,
           [.call (.wait s.par.tResumeMs) .done],
           x2.events settle (UnitOp.frame s.par .packetRead),
           (match x2.outcome with
            | .ok f =>
              warnUnless (streamOf s.par f == .on) .streamRbMismatch .resume .u6 (.stream (streamOf s.par f))
            | .error e => [.diag ⟨.streamRbFail, .resume, some .u6, .transport e⟩]),
           [.respond .ok none]])
        { s.takePort .resume with
          life := .ready, irqEn := true, tx := none
          ses :=
            { s.ses with
              powerOn := w1.register true s.ses.powerOn
              powerRb := (match x1.outcome with | .ok f => some (powerOf s.par f) | .error _ => s.ses.powerRb)
              streamingOn := w2.register true s.ses.streamingOn
              streamRb := (match x2.outcome with | .ok f => some (streamOf s.par f) | .error _ => s.ses.streamRb) } })

/-- R210 and R214: whatever the bus answers and whatever the parameters, a SUSPEND that has ended is in Suspended with
the interrupt masked, a RESUME that has ended is in Ready with the interrupt enabled, and both end with OK. -/
def Obligations.PowerTransitionsBestEffort : Prop :=
  (∀ s t : State, s.atRest = true → s.life = .ready → s.fault = false → exec .suspend s = .next t → t.step = none →
    t.life = .suspended ∧ t.lastResult = .ok ∧ t.irqEn = false ∧ t.irqPend = false)
  ∧ (∀ s t : State, s.atRest = true → s.life = .suspended → s.fault = false → exec .resume s = .next t →
    t.step = none → t.life = .ready ∧ t.lastResult = .ok ∧ t.irqEn = true)

/-- R218 and R219: a DETACH masks the interrupt, releases exactly what is held in the source's order, clears the session
and ends in Detached with OK, from every state and with FAULT set too; in Detached it does nothing but answer. That the
session takes CFG_SNX and CFG_SNY with it is the model's reading (log 12). -/
def Obligations.DetachReleases : Prop :=
  ∀ (s : State) (ds : List Nat) (rest : List Input), s.atRest = true → Settled rest →
    (s.life = .detached → (s.takePort .detach).inbox = rest →
      exec .detach s = .next (ended .ok none rest 0 [.respond .ok none] (s.takePort .detach)))
    ∧ (s.life ≠ .detached → ds.length = (releases s.res).length →
      (s.takePort .detach).inbox = ds.map (fun e => .reply e .done) ++ rest →
      exec .detach s = .next (ended .ok none rest ds.sum
        ((releases s.res).map (fun c => .call c .done) ++ [.respond .ok none])
        { released (s.takePort .detach) with life := .detached }))

/-- R222: FINGER_QUERY reads FINGER_STATE and answers the host with the value, or with the code of the failure; it
writes no register but LAST_RESULT and RX. -/
def Obligations.FingerQueryAnswers : Prop :=
  ∀ (s : State) (d1 d2 d3 : Nat) (rest : List Input),
    s.atRest = true → s.life = .ready → s.fault = false → Settled rest → s.par.lit = Config.lit →
    let frame : List Byte := [0x53, 0x51, s.par.readFinger.hi, s.par.readFinger.lo]
    let b := s.takePort .fingerQuery
    (∀ c : Int, c ≠ 4 → b.inbox = .reply d1 (.sent c) :: rest →
      exec .fingerQuery s = .next (ended .transportSend none rest d1
        [.call (.busSend frame) (.sent c), .respond .transportSend none] { b with tx := none }))
    ∧ (∀ (c : Int) (bytes : List Byte), c ≠ 4 →
      b.inbox = .reply d1 (.sent 4) :: .reply d2 .done :: .reply d3 (.received c bytes) :: rest →
      exec .fingerQuery s = .next (ended .transportRecv none rest (d1 + (s.par.tSettleMs + d2) + d3)
        [.call (.busSend frame) (.sent 4), .call (.wait s.par.tSettleMs) .done,
          .call (.busRecv 4) (.received c bytes), .respond .transportRecv none] { b with tx := none }))
    ∧ (∀ m r1 r2 r3 : Byte,
      b.inbox = .reply d1 (.sent 4) :: .reply d2 .done :: .reply d3 (.received 4 [m, r1, r2, r3]) :: rest →
      let code : ResultCode := if m = 0x52 then .ok else .protocol
      let value : Option Bool := if m = 0x52 then some (r2 != 0) else none
      exec .fingerQuery s = .next (ended code (some [m, r1, r2, r3]) rest (d1 + (s.par.tSettleMs + d2) + d3)
        [.call (.busSend frame) (.sent 4), .call (.wait s.par.tSettleMs) .done,
          .call (.busRecv 4) (.received 4 [m, r1, r2, r3]), .respond code value] { b with tx := none }))

/-! ## The machine (10_state.md, 20_memory.md, 60_exceptions.md, 70_reset_and_hazards.md) -/

/-- A step runs the decoded instruction: where bits stand at a port of the block or at its program counter and decode to
`i`, the step is exactly what `exec` does with `i` (R21, R91, R92). The bits that stand there are: an assertion that
comes next; the frame of the unit operation that stands at T1; and the response, the hello or the interrupt frame that
answers the outstanding receive. The request that the arbiter picks is in `ArbiterChoiceIsFree`. At which port bits
stand is the model's choice (log 13), and that a waiting host writes first too (log 8). -/
def Obligations.StepRunsDecoded : Prop :=
  (∀ (s : State) (w : Wire) (i : Instr), s.fetch = some w → decode s.par w = .ok i → step s = exec i s)
  ∧ ∀ s : State, s.hostCanWrite = false →
    (∀ rest, s.inbox = .irq :: rest → step s = exec .irqLine s)
    ∧ (∀ op, s.asyncNext = false → s.call = none → s.unit = some (op, .t1) → step s = exec op.instr s)
    ∧ ∀ (d : Nat) (f more : List Byte) (rest : List Input) (i : Instr),
      let answer : Reply := .received (f.length : Int) (f ++ more)
      (∀ op, s.unit = some (op, .t3) → s.call = some (.busRecv s.par.lit.cmdLen) → s.inbox = .reply d answer :: rest →
        f.length = s.par.lit.cmdLen → decode s.par (.reply f) = .ok i → step s = exec i s)
      ∧ (Answering s .a9 (.busRecv s.par.lit.helloLen) d answer rest → f.length = s.par.lit.helloLen →
        decode s.par (.hello f) = .ok i → step s = exec i s)
      ∧ (Answering s .i4 (.busRecv s.par.lit.rptLen) d answer rest → f.length = s.par.lit.rptLen →
        decode s.par (.irq f) = .ok i → step s = exec i s)

/-- R66: the sequencer is at rest and no other agent moves first. A pending request alone is what the step executes; a
pending interrupt alone starts its DISPATCH, which runs from I1 and, until the acknowledge is answered, stands at I2.
With both pending either may start: the turn that is handed out decides, and without a turn one of the two starts. That
a turn carries the choice is the model's form of it (log 4). With FAULT set only the request starts (log 9). -/
def Obligations.ArbiterChoiceIsFree : Prop :=
  ∀ s : State, s.atRest = true → s.hostCanWrite = false → s.asyncNext = false →
    (∀ q, s.hostReq = some q → s.irqPend = false ∨ s.fault = true → step s = exec (decodeRequest q) s)
    ∧ (afterTurn s.inbox = [] →
      dispatchFrom s = .next
        { s with
          step := some .i2, ur := none, irqPend := false, rx := none, call := some .readAndAck, inbox := [] })
    ∧ (s.hostReq = none → s.irqPend = true → s.fault = false → step s = dispatchFrom s)
    ∧ ∀ q, s.hostReq = some q → s.irqPend = true → s.fault = false →
      (∀ rest, s.inbox = .turn true :: rest → step s = exec (decodeRequest q) s)
      ∧ (∀ rest, s.inbox = .turn false :: rest → step s = dispatchFrom s)
      ∧ ((∀ b rest, s.inbox ≠ .turn b :: rest) →
        step s = exec (decodeRequest q) s ∨ step s = dispatchFrom { s with freeCount := s.freeCount + 1 })

/-- R42: the host's request goes into HOST_REQ when it is ⊥ and no earlier one waits; otherwise the host waits and the
request in the port stays. Where HOST_REQ is ⊥ and a request waits, the oldest waiting one goes into HOST_REQ before any
other move, and nothing else changes. That the waiting host's requests stand in a list, and that its write comes first,
is the model's choice (log 8). -/
def Obligations.HostWritesPort : Prop :=
  (∀ (s : State) (q : HostReq) (rest : List Input), s.inbox = .request q :: rest → s.hostCanWrite = false →
    step s = .next
      (if s.hostReq = none then { s with inbox := rest, hostReq := some q }
       else { s with inbox := rest, hostWait := s.hostWait ++ [q] }))
  ∧ ∀ (s : State) (q : HostReq) (w : List HostReq), s.hostReq = none → s.hostWait = q :: w →
    step s = .next { s with hostReq := some q, hostWait := w }

/-- R290 and R50: RST at any time puts every register at its reset value, abandons the operation in flight and executes
no primitive; the trace, the time and the other agents' moves are not registers of the block (log 19). -/
def Obligations.BlockReset : Prop :=
  ∀ (s : State) (rest : List Input), s.inbox = .rst :: rest → s.hostCanWrite = false →
    step s = .next
      { par := s.par, step := none, unit := none, ur := none, call := none, life := .cold
        ses :=
          { fwVersion := none, width := none, height := none, powerOn := none, streamingOn := none, powerRb := none
            streamRb := none, cfgSmx := none, cfgSmy := none, cfgRx := none, cfgRy := none, cfgXy := none
            cfgIrqMode := none, cfgSnx := none, cfgSny := none }
        irqEn := false, irqPend := false, fault := false, faultCause := .none
        res := { pins := false, irqCfg := false, bus := false, host := false, pinRst := none, pinInt := none }
        lastResult := .noneYet, lastReport := none, tx := none, rx := none, hostReq := none
        hostWait := s.hostWait, inbox := rest, trace := s.trace, clock := s.clock, portLog := s.portLog
        freeCount := s.freeCount }

/-- R50: the machine right after reset, as the status port and the sequencer show it: idle in Cold, every flag false,
LAST_RESULT NONE, nothing valid. -/
def Obligations.ResetValues : Prop :=
  State.reset.curOp = .idle ∧ State.reset.stepName = none ∧ State.reset.life = .cold ∧ State.reset.ses = {}
    ∧ State.reset.irqEn = false ∧ State.reset.irqPend = false ∧ State.reset.fault = false
    ∧ State.reset.faultCause.code = 0 ∧ State.reset.res = {} ∧ State.reset.lastResult.code = 15
    ∧ State.reset.lastReport = none ∧ State.reset.tx = none ∧ State.reset.rx = none ∧ State.reset.hostReq = none
    ∧ (∀ draw, State.reset.portValue 0 draw = 0x0F00) ∧ (∀ draw, State.reset.portValue 1 draw = 0x0000)
    ∧ (∀ draw, State.reset.portValue 10 draw = 0x0000)

/-- R69: a status-port read changes no register: only the log of what the host has read grows, by the value at that
moment. That log is the model's form of what the host sees (log 25), and a waiting host's write to HOST_REQ comes before
the read (log 8, `HostWritesPort`). -/
def Obligations.PortReadHasNoEffect : Prop :=
  ∀ (s : State) (rn : BitVec 5) (draw : BitVec 16) (rest : List Input),
    s.inbox = .portRead rn draw :: rest → s.hostCanWrite = false →
    step s = .next { s with inbox := rest, portLog := s.portLog ++ [(rn, s.portValue rn.toNat draw)] }

/-- R44, RN 0 and RN 1: the bits of STATUS and RESOURCES, each at its place and the others 0, with LIFE's values of R22
and the result codes of R262; RN 22..31 read as 0. -/
def Obligations.PortBits : Prop :=
  ∀ (s : State) (draw : BitVec 16),
    let a := s.portValue 0 draw
    let b := s.portValue 1 draw
    a.extractLsb' 0 3 = (match s.life with
        | .cold => 0 | .reset => 1 | .awaitHello => 2 | .queryInfo => 3 | .ready => 4 | .suspended => 5 | .detached => 6)
      ∧ a.getLsbD 3 = s.irqEn ∧ a.getLsbD 4 = s.irqPend ∧ a.getLsbD 5 = s.fault
      ∧ a.getLsbD 6 = s.busy ∧ a.getLsbD 7 = false ∧ a.extractLsb' 8 4 = (match s.lastResult with
        | .ok => 0 | .transportSend => 1 | .transportRecv => 2 | .protocol => 3 | .config => 4 | .init => 5
        | .badState => 6 | .faulted => 7 | .badRequest => 8 | .noneYet => 15)
      ∧ a.extractLsb' 12 4 = 0
      ∧ b.getLsbD 0 = s.res.pins ∧ b.getLsbD 1 = s.res.irqCfg ∧ b.getLsbD 2 = s.res.bus ∧ b.getLsbD 3 = s.res.host
      ∧ b.getLsbD 4 = s.ses.fwVersion.isSome ∧ b.getLsbD 5 = s.ses.width.isSome
      ∧ b.getLsbD 6 = s.ses.height.isSome ∧ b.getLsbD 7 = s.ses.cfgSmx.isSome
      ∧ b.getLsbD 8 = s.lastReport.isSome ∧ b.extractLsb' 9 7 = 0
      ∧ (∀ n, 22 ≤ n → n ≤ 31 → s.portValue n draw = 0)

/-- R44, RN 2 to RN 21: which bits carry which register, with FAULT_CAUSE's values of R35. A field that holds ⊥ reads as the draw's bits at its place, and
a bit without a field as 0; that the raw byte of STREAM_RB is 0 where its kind is not 3 is the model's reading (log 10).
A slot of the report that has no present point has no coordinates. -/
def Obligations.PortFields : Prop :=
  ∀ (s : State) (draw : BitVec 16),
    let r := fun n => s.portValue n draw
    let slot := fun i => s.lastReport.bind fun p => (p.pts.find? (fun q => q.slot == i)).bind TouchPoint.pos
    r 2 = s.ses.fwVersion.getD draw
      ∧ (r 3).extractLsb' 0 12 = s.ses.width.getD (draw.extractLsb' 0 12) ∧ (r 3).extractLsb' 12 4 = 0
      ∧ (r 4).extractLsb' 0 12 = s.ses.height.getD (draw.extractLsb' 0 12) ∧ (r 4).extractLsb' 12 4 = 0
      ∧ (r 5).getLsbD 0 = s.ses.powerOn.getD (draw.getLsbD 0) ∧ (r 5).getLsbD 1 = s.ses.powerOn.isSome
      ∧ (r 5).getLsbD 2 = s.ses.powerRb.getD (draw.getLsbD 2) ∧ (r 5).getLsbD 3 = s.ses.powerRb.isSome
      ∧ (r 5).extractLsb' 4 12 = 0
      ∧ (r 6).getLsbD 0 = s.ses.streamingOn.getD (draw.getLsbD 0) ∧ (r 6).getLsbD 1 = s.ses.streamingOn.isSome
      ∧ (match s.ses.streamRb with
          | none => (r 6).extractLsb' 2 2 = 0 ∧ (r 6).extractLsb' 8 8 = 0
          | some .on => (r 6).extractLsb' 2 2 = 1 ∧ (r 6).extractLsb' 8 8 = 0
          | some .off => (r 6).extractLsb' 2 2 = 2 ∧ (r 6).extractLsb' 8 8 = 0
          | some (.unrecognised v) => (r 6).extractLsb' 2 2 = 3 ∧ (r 6).extractLsb' 8 8 = v)
      ∧ (r 6).extractLsb' 4 4 = 0
      ∧ r 7 = s.ses.cfgSmx.getD draw ∧ r 8 = s.ses.cfgSmy.getD draw
      ∧ (r 9).getLsbD 0 = s.ses.cfgRx.getD (draw.getLsbD 0) ∧ (r 9).getLsbD 1 = s.ses.cfgRy.getD (draw.getLsbD 1)
      ∧ (r 9).getLsbD 2 = s.ses.cfgXy.getD (draw.getLsbD 2) ∧ (r 9).extractLsb' 3 13 = 0
      ∧ (r 10).extractLsb' 0 4 = (match s.faultCause with | .none => 0 | .normalizerDivZero => 1) ∧ (r 10).extractLsb' 4 12 = 0
      ∧ (r 11).extractLsb' 0 3 = (s.lastReport.map Report.fc).getD (draw.extractLsb' 0 3)
      ∧ (∀ i, i < 5 → (r 11).getLsbD (3 + i) = if s.lastReport.isSome then (slot i).isSome else draw.getLsbD (3 + i))
      ∧ (r 11).extractLsb' 8 8 = 0
      ∧ ∀ i, i < 5 →
          (r (12 + 2 * i)).extractLsb' 0 12 = ((slot i).map Prod.fst).getD (draw.extractLsb' 0 12)
            ∧ (r (12 + 2 * i)).extractLsb' 12 4 = 0
            ∧ (r (13 + 2 * i)).extractLsb' 0 12 = ((slot i).map Prod.snd).getD (draw.extractLsb' 0 12)
            ∧ (r (13 + 2 * i)).extractLsb' 12 4 = 0

/-- R35: once FAULT is set, no step but a block reset clears it or its cause, and a set fault refuses every assertion:
IRQ_PEND is not set anew. No DISPATCH starts then, not for an assertion latched before either (R224, R240; the model's
reading, log 9): a step from a state that stands in no DISPATCH leaves none in flight, calls no acknowledge, and adds
no answered one, which is the first event of every DISPATCH (R240), to the trace. -/
def Obligations.FaultIsSticky : Prop :=
  ∀ s t : State, s.fault = true → (∀ rest, s.inbox ≠ .rst :: rest) → step s = .next t →
    t.fault = true ∧ (s.faultCause = .normalizerDivZero → t.faultCause = .normalizerDivZero)
      ∧ (s.irqPend = false → t.irqPend = false)
      ∧ ((∀ l, s.step = some l → l.name.op ≠ .dispatch) → s.call ≠ some .readAndAck →
        (∀ l, t.step = some l → l.name.op ≠ .dispatch) ∧ t.call ≠ some .readAndAck
          ∧ ∃ added, t.trace = s.trace ++ added ∧ ∀ r, Event.call .readAndAck r ∉ added)

/-- R67 and R300: the trace only grows at its end and time never decreases: no step removes, changes or reorders an event,
turns the clock back, or changes the parameters of the instance. -/
def Obligations.TraceAndTimeOnlyGrow : Prop :=
  ∀ s t : State, step s = .next t → s.trace <+: t.trace ∧ s.clock ≤ t.clock ∧ t.par = s.par

/-- R302: an operation that starts at rest, a host request or a DISPATCH, runs until it has ended or until the sequencer
has no move: an answer is outstanding or another agent moves first. It is never cut short, and so no step that starts at
rest, a DISPATCH that was latched before among them, leaves an operation that could go on. The spec marks this rule as
its own inference; that a run of ticks is one `exec` is the model's choice (log 3). -/
def Obligations.OperationsAreBounded : Prop :=
  (∀ (i : Instr) (s t : State),
    ((∃ cfg, i = .attach cfg) ∨ i = .suspend ∨ i = .resume ∨ i = .detach ∨ i = .fingerQuery ∨ i = .irqLine) →
    s.atRest = true → exec i s = .next t → t.step = none ∨ tick t = .rest)
  ∧ ∀ s t : State, s.atRest = true → step s = .next t → t.step = none ∨ tick t = .rest

/-- The invariant of the block holds right after reset. What it says at a step label is the model's reading of the
step lists. -/
def Obligations.InvAtReset : Prop := Inv State.reset

/-- Every step keeps the invariant of the block: what each step label of R201 to R245 holds of the resources, the
session registers, the interrupt enable and the fault, and which LIFE stands at each of them (`LifeAt`), with the writes
of Reset at A7, AwaitHello at A9 and QueryInfo at A10. That is the model's reading of the step lists. -/
def Obligations.InvIsKept : Prop := ∀ s t : State, Inv s → step s = .next t → Inv t

/-- R50, M16 and R94: in a state that meets the invariant every step answers a next state: no step reads a register
that holds ⊥, and the bits at the block's ports always decode. That a step without a move leaves the state as it is,
is the model's choice (log 28). -/
def Obligations.StepAlwaysAnswers : Prop := ∀ s : State, Inv s → ∃ t, step s = .next t

/-- R225 a, b, d to f and the first half of c: at every point where CUR_OP is IDLE, LIFE is Cold, Ready, Suspended or
Detached, and it fixes the interrupt enable, the resources, the pins and the session registers, and a latched interrupt
is an enabled one. The other half of c, that FAULT was false when the latch was set, is in `AssertionLatch`. The spec
marks this rule as its own inference; that CFG_SNX and CFG_SNY, which R23 does not name, hold ⊥ with the session in Cold
and Detached is the model's reading (log 12). -/
def Obligations.IdleInvariants : Prop :=
  ∀ s : State, Inv s → s.curOp = .idle →
    (s.life = .cold ∨ s.life = .ready ∨ s.life = .suspended ∨ s.life = .detached)
      ∧ (s.irqEn = true ↔ s.life = .ready)
      ∧ (s.irqPend = true → s.irqEn = true)
      ∧ ((s.life = .ready ∨ s.life = .suspended)
          ↔ s.res.pins = true ∧ s.res.irqCfg = true ∧ s.res.bus = true ∧ s.res.host = true)
      ∧ ((s.life = .cold ∨ s.life = .detached)
          ↔ s.res.pins = false ∧ s.res.irqCfg = false ∧ s.res.bus = false ∧ s.res.host = false
            ∧ s.res.pinRst = none ∧ s.res.pinInt = none ∧ s.ses = {})
      ∧ ((s.ses.fwVersion.isSome ∧ s.ses.width.isSome ∧ s.ses.height.isSome ∧ s.ses.cfgSmx.isSome
            ∧ s.ses.cfgSmy.isSome ∧ s.ses.cfgRx.isSome ∧ s.ses.cfgRy.isSome ∧ s.ses.cfgXy.isSome
            ∧ s.ses.cfgIrqMode.isSome) ↔ (s.life = .ready ∨ s.life = .suspended))

/-! ## The report decoder and the normalizer (42_report_decoder.md, 43_normalizer.md) -/

/-- R163: a slot is empty exactly when its three bytes are zero, and otherwise the low byte of x is b2, that of y is b1,
and their high parts are the low and the high half of b0. -/
def Obligations.SlotDecoding : Prop :=
  ∀ (i : Nat) (b0 b1 b2 : Byte),
    (decodeSlot i b0 b1 b2).slot = i
      ∧ ((decodeSlot i b0 b1 b2).pos = none ↔ b0 = 0 ∧ b1 = 0 ∧ b2 = 0)
      ∧ ∀ x y, (decodeSlot i b0 b1 b2).pos = some (x, y) →
          x.toNat = (b0.toNat % 16) * 256 + b2.toNat ∧ y.toNat = (b0.toNat / 16) * 256 + b1.toNat

/-- R165: decoding the bytes of `SLOT(x, y)` gives the point back, except that (0, 0) decodes as empty. The spec marks
this rule as its own inference. -/
def Obligations.SlotRoundTrip : Prop :=
  ∀ (i : Nat) (x y : BitVec 12),
    decodeSlot i (slotBytes x y).1 (slotBytes x y).2.1 (slotBytes x y).2.2
      = if x = 0 ∧ y = 0 then { slot := i, pos := none } else { slot := i, pos := some (x, y) }

/-- R160 to R164 and R168: the report has five points in slot order; with a finger count of 0 none is present, and with
any other count every slot is decoded from its three bytes at 2 + 3i, whatever the count says. The frame has its 25
bytes; the spec marks R164 and R168 as its own inference. -/
def Obligations.ReportScan : Prop :=
  ∀ (p : Params) (f : List Byte), p.lit = Config.lit → f.length = 25 →
    (decodeReport p f).fc.toNat = (f.getD 1 0).toNat % 8
      ∧ (decodeReport p f).pts.map TouchPoint.slot = [0, 1, 2, 3, 4]
      ∧ ((decodeReport p f).fc = 0 → ∀ q ∈ (decodeReport p f).pts, q.pos = none)
      ∧ ((decodeReport p f).fc ≠ 0 → ∀ i, i < 5 →
          (decodeReport p f).pts[i]? = some (decodeSlot i (f.getD (2 + 3 * i) 0) (f.getD (3 + 3 * i) 0)
            (f.getD (4 + 3 * i) 0)))

/-- R180: `Normalize(x, y)` faults when either sensor maximum is 0, before any other register is read, and otherwise
scales, reverts and exchanges in that order. -/
def Obligations.NormalizeStages : Prop :=
  ∀ (s : State) (smx smy : BitVec 16) (nx ny : Nat) (fx fy fxy : Bool) (x y : BitVec 12), SensorMax s nx ny →
    (nx = 0 ∨ ny = 0 → s.normalize x.toNat y.toNat = .ok .divZero)
      ∧ (nx ≠ 0 → ny ≠ 0 → ScreenSetup s smx smy fx fy fxy →
          s.normalize x.toNat y.toNat = .ok (.ok (screenPoint smx.toNat smy.toNat nx ny fx fy fxy (x, y))))

/-- R187: every result of the normalizer lies in [-(2^28), 2^28], so a signed 32-bit port carries it exactly. The spec
marks the bound as its own inference. -/
def Obligations.NormalizeBound : Prop :=
  ∀ (smx smy : BitVec 16) (nx ny : Nat) (fx fy fxy : Bool) (x y : BitVec 12),
    let q := normalizePoint smx.toNat smy.toNat nx ny fx fy fxy x.toNat y.toNat
    |q.1| ≤ 2 ^ 28 ∧ |q.2| ≤ 2 ^ 28

/-- R185: scale is monotonic non-decreasing in its input, revert is an involution that maps [0, m] onto itself, and
the exchange is an involution. The spec marks this rule as its own inference. -/
def Obligations.NormalizeProperties : Prop :=
  (∀ v w m n : Nat, 0 < n → v ≤ w → scale v m n ≤ scale w m n)
    ∧ (∀ (flag : Bool) (m : Nat) (v : Int), revert flag m (revert flag m v) = v)
    ∧ (∀ (flag : Bool) (m : Nat) (v : Int), 0 ≤ v → v ≤ m → 0 ≤ revert flag m v ∧ revert flag m v ≤ m)
    ∧ (∀ (flag : Bool) (p : Int × Int), exchange flag (exchange flag p) = p)
end

