-- ==== Sys2Proof/Laws/State.lean ====
section
/-! SUPPORT. What each named update of the state does to each field: one lemma per field per update, for the simp set. -/

namespace Sys2Proof.Machine

/-! ## `State.goto` -/

@[simp] theorem State.goto_par (l : Label) (s : State) : (s.goto l).par = s.par := rfl
@[simp] theorem State.goto_step (l : Label) (s : State) : (s.goto l).step = some l := rfl
@[simp] theorem State.goto_unit (l : Label) (s : State) : (s.goto l).unit = s.unit := rfl
@[simp] theorem State.goto_ur (l : Label) (s : State) : (s.goto l).ur = none := rfl
@[simp] theorem State.goto_call (l : Label) (s : State) : (s.goto l).call = s.call := rfl
@[simp] theorem State.goto_life (l : Label) (s : State) : (s.goto l).life = s.life := rfl
@[simp] theorem State.goto_ses (l : Label) (s : State) : (s.goto l).ses = s.ses := rfl
@[simp] theorem State.goto_irqEn (l : Label) (s : State) : (s.goto l).irqEn = s.irqEn := rfl
@[simp] theorem State.goto_irqPend (l : Label) (s : State) : (s.goto l).irqPend = s.irqPend := rfl
@[simp] theorem State.goto_fault (l : Label) (s : State) : (s.goto l).fault = s.fault := rfl
@[simp] theorem State.goto_faultCause (l : Label) (s : State) : (s.goto l).faultCause = s.faultCause := rfl
@[simp] theorem State.goto_res (l : Label) (s : State) : (s.goto l).res = s.res := rfl
@[simp] theorem State.goto_lastResult (l : Label) (s : State) : (s.goto l).lastResult = s.lastResult := rfl
@[simp] theorem State.goto_lastReport (l : Label) (s : State) : (s.goto l).lastReport = s.lastReport := rfl
@[simp] theorem State.goto_tx (l : Label) (s : State) : (s.goto l).tx = s.tx := rfl
@[simp] theorem State.goto_rx (l : Label) (s : State) : (s.goto l).rx = s.rx := rfl
@[simp] theorem State.goto_hostReq (l : Label) (s : State) : (s.goto l).hostReq = s.hostReq := rfl
@[simp] theorem State.goto_hostWait (l : Label) (s : State) : (s.goto l).hostWait = s.hostWait := rfl
@[simp] theorem State.goto_inbox (l : Label) (s : State) : (s.goto l).inbox = s.inbox := rfl
@[simp] theorem State.goto_trace (l : Label) (s : State) : (s.goto l).trace = s.trace := rfl
@[simp] theorem State.goto_clock (l : Label) (s : State) : (s.goto l).clock = s.clock := rfl
@[simp] theorem State.goto_portLog (l : Label) (s : State) : (s.goto l).portLog = s.portLog := rfl
@[simp] theorem State.goto_freeCount (l : Label) (s : State) : (s.goto l).freeCount = s.freeCount := rfl

/-! ## `State.emit` -/

@[simp] theorem State.emit_par (e : Event) (s : State) : (s.emit e).par = s.par := rfl
@[simp] theorem State.emit_step (e : Event) (s : State) : (s.emit e).step = s.step := rfl
@[simp] theorem State.emit_unit (e : Event) (s : State) : (s.emit e).unit = s.unit := rfl
@[simp] theorem State.emit_ur (e : Event) (s : State) : (s.emit e).ur = s.ur := rfl
@[simp] theorem State.emit_call (e : Event) (s : State) : (s.emit e).call = s.call := rfl
@[simp] theorem State.emit_life (e : Event) (s : State) : (s.emit e).life = s.life := rfl
@[simp] theorem State.emit_ses (e : Event) (s : State) : (s.emit e).ses = s.ses := rfl
@[simp] theorem State.emit_irqEn (e : Event) (s : State) : (s.emit e).irqEn = s.irqEn := rfl
@[simp] theorem State.emit_irqPend (e : Event) (s : State) : (s.emit e).irqPend = s.irqPend := rfl
@[simp] theorem State.emit_fault (e : Event) (s : State) : (s.emit e).fault = s.fault := rfl
@[simp] theorem State.emit_faultCause (e : Event) (s : State) : (s.emit e).faultCause = s.faultCause := rfl
@[simp] theorem State.emit_res (e : Event) (s : State) : (s.emit e).res = s.res := rfl
@[simp] theorem State.emit_lastResult (e : Event) (s : State) : (s.emit e).lastResult = s.lastResult := rfl
@[simp] theorem State.emit_lastReport (e : Event) (s : State) : (s.emit e).lastReport = s.lastReport := rfl
@[simp] theorem State.emit_tx (e : Event) (s : State) : (s.emit e).tx = s.tx := rfl
@[simp] theorem State.emit_rx (e : Event) (s : State) : (s.emit e).rx = s.rx := rfl
@[simp] theorem State.emit_hostReq (e : Event) (s : State) : (s.emit e).hostReq = s.hostReq := rfl
@[simp] theorem State.emit_hostWait (e : Event) (s : State) : (s.emit e).hostWait = s.hostWait := rfl
@[simp] theorem State.emit_inbox (e : Event) (s : State) : (s.emit e).inbox = s.inbox := rfl
@[simp] theorem State.emit_trace (e : Event) (s : State) : (s.emit e).trace = s.trace ++ [e] := rfl
@[simp] theorem State.emit_clock (e : Event) (s : State) : (s.emit e).clock = s.clock := rfl
@[simp] theorem State.emit_portLog (e : Event) (s : State) : (s.emit e).portLog = s.portLog := rfl
@[simp] theorem State.emit_freeCount (e : Event) (s : State) : (s.emit e).freeCount = s.freeCount := rfl

/-! ## `State.diag` -/

@[simp] theorem State.diag_par (c : DiagCode) (i : DiagInfo) (s : State) : (s.diag c i).par = s.par := rfl
@[simp] theorem State.diag_step (c : DiagCode) (i : DiagInfo) (s : State) : (s.diag c i).step = s.step := rfl
@[simp] theorem State.diag_unit (c : DiagCode) (i : DiagInfo) (s : State) : (s.diag c i).unit = s.unit := rfl
@[simp] theorem State.diag_ur (c : DiagCode) (i : DiagInfo) (s : State) : (s.diag c i).ur = s.ur := rfl
@[simp] theorem State.diag_call (c : DiagCode) (i : DiagInfo) (s : State) : (s.diag c i).call = s.call := rfl
@[simp] theorem State.diag_life (c : DiagCode) (i : DiagInfo) (s : State) : (s.diag c i).life = s.life := rfl
@[simp] theorem State.diag_ses (c : DiagCode) (i : DiagInfo) (s : State) : (s.diag c i).ses = s.ses := rfl
@[simp] theorem State.diag_irqEn (c : DiagCode) (i : DiagInfo) (s : State) : (s.diag c i).irqEn = s.irqEn := rfl
@[simp] theorem State.diag_irqPend (c : DiagCode) (i : DiagInfo) (s : State) : (s.diag c i).irqPend = s.irqPend := rfl
@[simp] theorem State.diag_fault (c : DiagCode) (i : DiagInfo) (s : State) : (s.diag c i).fault = s.fault := rfl
@[simp] theorem State.diag_faultCause (c : DiagCode) (i : DiagInfo) (s : State) : (s.diag c i).faultCause = s.faultCause := rfl
@[simp] theorem State.diag_res (c : DiagCode) (i : DiagInfo) (s : State) : (s.diag c i).res = s.res := rfl
@[simp] theorem State.diag_lastResult (c : DiagCode) (i : DiagInfo) (s : State) : (s.diag c i).lastResult = s.lastResult := rfl
@[simp] theorem State.diag_lastReport (c : DiagCode) (i : DiagInfo) (s : State) : (s.diag c i).lastReport = s.lastReport := rfl
@[simp] theorem State.diag_tx (c : DiagCode) (i : DiagInfo) (s : State) : (s.diag c i).tx = s.tx := rfl
@[simp] theorem State.diag_rx (c : DiagCode) (i : DiagInfo) (s : State) : (s.diag c i).rx = s.rx := rfl
@[simp] theorem State.diag_hostReq (c : DiagCode) (i : DiagInfo) (s : State) : (s.diag c i).hostReq = s.hostReq := rfl
@[simp] theorem State.diag_hostWait (c : DiagCode) (i : DiagInfo) (s : State) : (s.diag c i).hostWait = s.hostWait := rfl
@[simp] theorem State.diag_inbox (c : DiagCode) (i : DiagInfo) (s : State) : (s.diag c i).inbox = s.inbox := rfl
@[simp] theorem State.diag_trace (c : DiagCode) (i : DiagInfo) (s : State) : (s.diag c i).trace = s.trace ++ [.diag { code := c, op := s.curOp, step := s.stepName, info := i }] := rfl
@[simp] theorem State.diag_clock (c : DiagCode) (i : DiagInfo) (s : State) : (s.diag c i).clock = s.clock := rfl
@[simp] theorem State.diag_portLog (c : DiagCode) (i : DiagInfo) (s : State) : (s.diag c i).portLog = s.portLog := rfl
@[simp] theorem State.diag_freeCount (c : DiagCode) (i : DiagInfo) (s : State) : (s.diag c i).freeCount = s.freeCount := rfl

/-! ## `State.issue` -/

@[simp] theorem State.issue_par (c : Call) (s : State) : (s.issue c).par = s.par := rfl
@[simp] theorem State.issue_step (c : Call) (s : State) : (s.issue c).step = s.step := rfl
@[simp] theorem State.issue_unit (c : Call) (s : State) : (s.issue c).unit = s.unit := rfl
@[simp] theorem State.issue_ur (c : Call) (s : State) : (s.issue c).ur = s.ur := rfl
@[simp] theorem State.issue_call (c : Call) (s : State) : (s.issue c).call = some c := rfl
@[simp] theorem State.issue_life (c : Call) (s : State) : (s.issue c).life = s.life := rfl
@[simp] theorem State.issue_ses (c : Call) (s : State) : (s.issue c).ses = s.ses := rfl
@[simp] theorem State.issue_irqEn (c : Call) (s : State) : (s.issue c).irqEn = s.irqEn := rfl
@[simp] theorem State.issue_irqPend (c : Call) (s : State) : (s.issue c).irqPend = s.irqPend := rfl
@[simp] theorem State.issue_fault (c : Call) (s : State) : (s.issue c).fault = s.fault := rfl
@[simp] theorem State.issue_faultCause (c : Call) (s : State) : (s.issue c).faultCause = s.faultCause := rfl
@[simp] theorem State.issue_res (c : Call) (s : State) : (s.issue c).res = s.res := rfl
@[simp] theorem State.issue_lastResult (c : Call) (s : State) : (s.issue c).lastResult = s.lastResult := rfl
@[simp] theorem State.issue_lastReport (c : Call) (s : State) : (s.issue c).lastReport = s.lastReport := rfl
@[simp] theorem State.issue_tx (c : Call) (s : State) : (s.issue c).tx = s.tx := rfl
@[simp] theorem State.issue_rx (c : Call) (s : State) : (s.issue c).rx = s.rx := rfl
@[simp] theorem State.issue_hostReq (c : Call) (s : State) : (s.issue c).hostReq = s.hostReq := rfl
@[simp] theorem State.issue_hostWait (c : Call) (s : State) : (s.issue c).hostWait = s.hostWait := rfl
@[simp] theorem State.issue_inbox (c : Call) (s : State) : (s.issue c).inbox = s.inbox := rfl
@[simp] theorem State.issue_trace (c : Call) (s : State) : (s.issue c).trace = s.trace := rfl
@[simp] theorem State.issue_clock (c : Call) (s : State) : (s.issue c).clock = s.clock := rfl
@[simp] theorem State.issue_portLog (c : Call) (s : State) : (s.issue c).portLog = s.portLog := rfl
@[simp] theorem State.issue_freeCount (c : Call) (s : State) : (s.issue c).freeCount = s.freeCount := rfl

/-! ## `State.answered` -/

@[simp] theorem State.answered_par (c : Call) (d : Nat) (r : Reply) (s : State) : (s.answered c d r).par = s.par := rfl
@[simp] theorem State.answered_step (c : Call) (d : Nat) (r : Reply) (s : State) : (s.answered c d r).step = s.step := rfl
@[simp] theorem State.answered_unit (c : Call) (d : Nat) (r : Reply) (s : State) : (s.answered c d r).unit = s.unit := rfl
@[simp] theorem State.answered_ur (c : Call) (d : Nat) (r : Reply) (s : State) : (s.answered c d r).ur = s.ur := rfl
@[simp] theorem State.answered_call (c : Call) (d : Nat) (r : Reply) (s : State) : (s.answered c d r).call = none := rfl
@[simp] theorem State.answered_life (c : Call) (d : Nat) (r : Reply) (s : State) : (s.answered c d r).life = s.life := rfl
@[simp] theorem State.answered_ses (c : Call) (d : Nat) (r : Reply) (s : State) : (s.answered c d r).ses = s.ses := rfl
@[simp] theorem State.answered_irqEn (c : Call) (d : Nat) (r : Reply) (s : State) : (s.answered c d r).irqEn = s.irqEn := rfl
@[simp] theorem State.answered_irqPend (c : Call) (d : Nat) (r : Reply) (s : State) : (s.answered c d r).irqPend = s.irqPend := rfl
@[simp] theorem State.answered_fault (c : Call) (d : Nat) (r : Reply) (s : State) : (s.answered c d r).fault = s.fault := rfl
@[simp] theorem State.answered_faultCause (c : Call) (d : Nat) (r : Reply) (s : State) : (s.answered c d r).faultCause = s.faultCause := rfl
@[simp] theorem State.answered_res (c : Call) (d : Nat) (r : Reply) (s : State) : (s.answered c d r).res = s.res := rfl
@[simp] theorem State.answered_lastResult (c : Call) (d : Nat) (r : Reply) (s : State) : (s.answered c d r).lastResult = s.lastResult := rfl
@[simp] theorem State.answered_lastReport (c : Call) (d : Nat) (r : Reply) (s : State) : (s.answered c d r).lastReport = s.lastReport := rfl
@[simp] theorem State.answered_tx (c : Call) (d : Nat) (r : Reply) (s : State) : (s.answered c d r).tx = s.tx := rfl
@[simp] theorem State.answered_rx (c : Call) (d : Nat) (r : Reply) (s : State) : (s.answered c d r).rx = s.rx := rfl
@[simp] theorem State.answered_hostReq (c : Call) (d : Nat) (r : Reply) (s : State) : (s.answered c d r).hostReq = s.hostReq := rfl
@[simp] theorem State.answered_hostWait (c : Call) (d : Nat) (r : Reply) (s : State) : (s.answered c d r).hostWait = s.hostWait := rfl
@[simp] theorem State.answered_inbox (c : Call) (d : Nat) (r : Reply) (s : State) : (s.answered c d r).inbox = s.inbox := rfl
@[simp] theorem State.answered_trace (c : Call) (d : Nat) (r : Reply) (s : State) : (s.answered c d r).trace = s.trace ++ [.call c (c.record r)] := rfl
@[simp] theorem State.answered_clock (c : Call) (d : Nat) (r : Reply) (s : State) : (s.answered c d r).clock = s.clock + c.minTime s.par + d := rfl
@[simp] theorem State.answered_portLog (c : Call) (d : Nat) (r : Reply) (s : State) : (s.answered c d r).portLog = s.portLog := rfl
@[simp] theorem State.answered_freeCount (c : Call) (d : Nat) (r : Reply) (s : State) : (s.answered c d r).freeCount = s.freeCount := rfl

/-! ## `State.finish` -/

@[simp] theorem State.finish_par (r : ResultCode) (v : Option Bool) (s : State) : (s.finish r v).par = s.par := by
  unfold State.finish; dsimp only; split <;> rfl
@[simp] theorem State.finish_step (r : ResultCode) (v : Option Bool) (s : State) : (s.finish r v).step = none := rfl
@[simp] theorem State.finish_unit (r : ResultCode) (v : Option Bool) (s : State) : (s.finish r v).unit = s.unit := by
  unfold State.finish; dsimp only; split <;> rfl
@[simp] theorem State.finish_ur (r : ResultCode) (v : Option Bool) (s : State) : (s.finish r v).ur = none := rfl
@[simp] theorem State.finish_call (r : ResultCode) (v : Option Bool) (s : State) : (s.finish r v).call = s.call := by
  unfold State.finish; dsimp only; split <;> rfl
@[simp] theorem State.finish_life (r : ResultCode) (v : Option Bool) (s : State) : (s.finish r v).life = s.life := by
  unfold State.finish; dsimp only; split <;> rfl
@[simp] theorem State.finish_ses (r : ResultCode) (v : Option Bool) (s : State) : (s.finish r v).ses = s.ses := by
  unfold State.finish; dsimp only; split <;> rfl
@[simp] theorem State.finish_irqEn (r : ResultCode) (v : Option Bool) (s : State) : (s.finish r v).irqEn = s.irqEn := by
  unfold State.finish; dsimp only; split <;> rfl
@[simp] theorem State.finish_irqPend (r : ResultCode) (v : Option Bool) (s : State) : (s.finish r v).irqPend = s.irqPend := by
  unfold State.finish; dsimp only; split <;> rfl
@[simp] theorem State.finish_fault (r : ResultCode) (v : Option Bool) (s : State) : (s.finish r v).fault = s.fault := by
  unfold State.finish; dsimp only; split <;> rfl
@[simp] theorem State.finish_faultCause (r : ResultCode) (v : Option Bool) (s : State) : (s.finish r v).faultCause = s.faultCause := by
  unfold State.finish; dsimp only; split <;> rfl
@[simp] theorem State.finish_res (r : ResultCode) (v : Option Bool) (s : State) : (s.finish r v).res = s.res := by
  unfold State.finish; dsimp only; split <;> rfl
@[simp] theorem State.finish_lastResult (r : ResultCode) (v : Option Bool) (s : State) : (s.finish r v).lastResult = r := rfl
@[simp] theorem State.finish_lastReport (r : ResultCode) (v : Option Bool) (s : State) : (s.finish r v).lastReport = s.lastReport := by
  unfold State.finish; dsimp only; split <;> rfl
@[simp] theorem State.finish_tx (r : ResultCode) (v : Option Bool) (s : State) : (s.finish r v).tx = s.tx := by
  unfold State.finish; dsimp only; split <;> rfl
@[simp] theorem State.finish_rx (r : ResultCode) (v : Option Bool) (s : State) : (s.finish r v).rx = s.rx := by
  unfold State.finish; dsimp only; split <;> rfl
@[simp] theorem State.finish_hostReq (r : ResultCode) (v : Option Bool) (s : State) : (s.finish r v).hostReq = s.hostReq := by
  unfold State.finish; dsimp only; split <;> rfl
@[simp] theorem State.finish_hostWait (r : ResultCode) (v : Option Bool) (s : State) : (s.finish r v).hostWait = s.hostWait := by
  unfold State.finish; dsimp only; split <;> rfl
@[simp] theorem State.finish_inbox (r : ResultCode) (v : Option Bool) (s : State) : (s.finish r v).inbox = s.inbox := by
  unfold State.finish; dsimp only; split <;> rfl
@[simp] theorem State.finish_trace (r : ResultCode) (v : Option Bool) (s : State) : (s.finish r v).trace = if s.curOp = .dispatch then s.trace else s.trace ++ [.respond r v] := by
  unfold State.finish; dsimp only; split <;> rfl
@[simp] theorem State.finish_clock (r : ResultCode) (v : Option Bool) (s : State) : (s.finish r v).clock = s.clock := by
  unfold State.finish; dsimp only; split <;> rfl
@[simp] theorem State.finish_portLog (r : ResultCode) (v : Option Bool) (s : State) : (s.finish r v).portLog = s.portLog := by
  unfold State.finish; dsimp only; split <;> rfl
@[simp] theorem State.finish_freeCount (r : ResultCode) (v : Option Bool) (s : State) : (s.finish r v).freeCount = s.freeCount := by
  unfold State.finish; dsimp only; split <;> rfl

/-! ## `State.raiseFault` -/

@[simp] theorem State.raiseFault_par (c : FaultCause) (s : State) : (s.raiseFault c).par = s.par := rfl
@[simp] theorem State.raiseFault_step (c : FaultCause) (s : State) : (s.raiseFault c).step = s.step := rfl
@[simp] theorem State.raiseFault_unit (c : FaultCause) (s : State) : (s.raiseFault c).unit = s.unit := rfl
@[simp] theorem State.raiseFault_ur (c : FaultCause) (s : State) : (s.raiseFault c).ur = s.ur := rfl
@[simp] theorem State.raiseFault_call (c : FaultCause) (s : State) : (s.raiseFault c).call = s.call := rfl
@[simp] theorem State.raiseFault_life (c : FaultCause) (s : State) : (s.raiseFault c).life = s.life := rfl
@[simp] theorem State.raiseFault_ses (c : FaultCause) (s : State) : (s.raiseFault c).ses = s.ses := rfl
@[simp] theorem State.raiseFault_irqEn (c : FaultCause) (s : State) : (s.raiseFault c).irqEn = s.irqEn := rfl
@[simp] theorem State.raiseFault_irqPend (c : FaultCause) (s : State) : (s.raiseFault c).irqPend = s.irqPend := rfl
@[simp] theorem State.raiseFault_fault (c : FaultCause) (s : State) : (s.raiseFault c).fault = true := rfl
@[simp] theorem State.raiseFault_faultCause (c : FaultCause) (s : State) : (s.raiseFault c).faultCause = c := rfl
@[simp] theorem State.raiseFault_res (c : FaultCause) (s : State) : (s.raiseFault c).res = s.res := rfl
@[simp] theorem State.raiseFault_lastResult (c : FaultCause) (s : State) : (s.raiseFault c).lastResult = s.lastResult := rfl
@[simp] theorem State.raiseFault_lastReport (c : FaultCause) (s : State) : (s.raiseFault c).lastReport = s.lastReport := rfl
@[simp] theorem State.raiseFault_tx (c : FaultCause) (s : State) : (s.raiseFault c).tx = s.tx := rfl
@[simp] theorem State.raiseFault_rx (c : FaultCause) (s : State) : (s.raiseFault c).rx = s.rx := rfl
@[simp] theorem State.raiseFault_hostReq (c : FaultCause) (s : State) : (s.raiseFault c).hostReq = s.hostReq := rfl
@[simp] theorem State.raiseFault_hostWait (c : FaultCause) (s : State) : (s.raiseFault c).hostWait = s.hostWait := rfl
@[simp] theorem State.raiseFault_inbox (c : FaultCause) (s : State) : (s.raiseFault c).inbox = s.inbox := rfl
@[simp] theorem State.raiseFault_trace (c : FaultCause) (s : State) : (s.raiseFault c).trace = s.trace := rfl
@[simp] theorem State.raiseFault_clock (c : FaultCause) (s : State) : (s.raiseFault c).clock = s.clock := rfl
@[simp] theorem State.raiseFault_portLog (c : FaultCause) (s : State) : (s.raiseFault c).portLog = s.portLog := rfl
@[simp] theorem State.raiseFault_freeCount (c : FaultCause) (s : State) : (s.raiseFault c).freeCount = s.freeCount := rfl

/-! ## `State.latchIrq` -/

@[simp] theorem State.latchIrq_par (s : State) : (s.latchIrq).par = s.par := rfl
@[simp] theorem State.latchIrq_step (s : State) : (s.latchIrq).step = s.step := rfl
@[simp] theorem State.latchIrq_unit (s : State) : (s.latchIrq).unit = s.unit := rfl
@[simp] theorem State.latchIrq_ur (s : State) : (s.latchIrq).ur = s.ur := rfl
@[simp] theorem State.latchIrq_call (s : State) : (s.latchIrq).call = s.call := rfl
@[simp] theorem State.latchIrq_life (s : State) : (s.latchIrq).life = s.life := rfl
@[simp] theorem State.latchIrq_ses (s : State) : (s.latchIrq).ses = s.ses := rfl
@[simp] theorem State.latchIrq_irqEn (s : State) : (s.latchIrq).irqEn = s.irqEn := rfl
@[simp] theorem State.latchIrq_irqPend (s : State) : (s.latchIrq).irqPend = (s.irqPend || (s.irqEn && !s.fault)) := rfl
@[simp] theorem State.latchIrq_fault (s : State) : (s.latchIrq).fault = s.fault := rfl
@[simp] theorem State.latchIrq_faultCause (s : State) : (s.latchIrq).faultCause = s.faultCause := rfl
@[simp] theorem State.latchIrq_res (s : State) : (s.latchIrq).res = s.res := rfl
@[simp] theorem State.latchIrq_lastResult (s : State) : (s.latchIrq).lastResult = s.lastResult := rfl
@[simp] theorem State.latchIrq_lastReport (s : State) : (s.latchIrq).lastReport = s.lastReport := rfl
@[simp] theorem State.latchIrq_tx (s : State) : (s.latchIrq).tx = s.tx := rfl
@[simp] theorem State.latchIrq_rx (s : State) : (s.latchIrq).rx = s.rx := rfl
@[simp] theorem State.latchIrq_hostReq (s : State) : (s.latchIrq).hostReq = s.hostReq := rfl
@[simp] theorem State.latchIrq_hostWait (s : State) : (s.latchIrq).hostWait = s.hostWait := rfl
@[simp] theorem State.latchIrq_inbox (s : State) : (s.latchIrq).inbox = s.inbox := rfl
@[simp] theorem State.latchIrq_trace (s : State) : (s.latchIrq).trace = s.trace := rfl
@[simp] theorem State.latchIrq_clock (s : State) : (s.latchIrq).clock = s.clock := rfl
@[simp] theorem State.latchIrq_portLog (s : State) : (s.latchIrq).portLog = s.portLog := rfl
@[simp] theorem State.latchIrq_freeCount (s : State) : (s.latchIrq).freeCount = s.freeCount := rfl

/-! ## `State.maskIrq` -/

@[simp] theorem State.maskIrq_par (s : State) : (s.maskIrq).par = s.par := rfl
@[simp] theorem State.maskIrq_step (s : State) : (s.maskIrq).step = s.step := rfl
@[simp] theorem State.maskIrq_unit (s : State) : (s.maskIrq).unit = s.unit := rfl
@[simp] theorem State.maskIrq_ur (s : State) : (s.maskIrq).ur = s.ur := rfl
@[simp] theorem State.maskIrq_call (s : State) : (s.maskIrq).call = s.call := rfl
@[simp] theorem State.maskIrq_life (s : State) : (s.maskIrq).life = s.life := rfl
@[simp] theorem State.maskIrq_ses (s : State) : (s.maskIrq).ses = s.ses := rfl
@[simp] theorem State.maskIrq_irqEn (s : State) : (s.maskIrq).irqEn = false := rfl
@[simp] theorem State.maskIrq_irqPend (s : State) : (s.maskIrq).irqPend = false := rfl
@[simp] theorem State.maskIrq_fault (s : State) : (s.maskIrq).fault = s.fault := rfl
@[simp] theorem State.maskIrq_faultCause (s : State) : (s.maskIrq).faultCause = s.faultCause := rfl
@[simp] theorem State.maskIrq_res (s : State) : (s.maskIrq).res = s.res := rfl
@[simp] theorem State.maskIrq_lastResult (s : State) : (s.maskIrq).lastResult = s.lastResult := rfl
@[simp] theorem State.maskIrq_lastReport (s : State) : (s.maskIrq).lastReport = s.lastReport := rfl
@[simp] theorem State.maskIrq_tx (s : State) : (s.maskIrq).tx = s.tx := rfl
@[simp] theorem State.maskIrq_rx (s : State) : (s.maskIrq).rx = s.rx := rfl
@[simp] theorem State.maskIrq_hostReq (s : State) : (s.maskIrq).hostReq = s.hostReq := rfl
@[simp] theorem State.maskIrq_hostWait (s : State) : (s.maskIrq).hostWait = s.hostWait := rfl
@[simp] theorem State.maskIrq_inbox (s : State) : (s.maskIrq).inbox = s.inbox := rfl
@[simp] theorem State.maskIrq_trace (s : State) : (s.maskIrq).trace = s.trace := rfl
@[simp] theorem State.maskIrq_clock (s : State) : (s.maskIrq).clock = s.clock := rfl
@[simp] theorem State.maskIrq_portLog (s : State) : (s.maskIrq).portLog = s.portLog := rfl
@[simp] theorem State.maskIrq_freeCount (s : State) : (s.maskIrq).freeCount = s.freeCount := rfl

/-! ## `State.unmaskIrq` -/

@[simp] theorem State.unmaskIrq_par (s : State) : (s.unmaskIrq).par = s.par := rfl
@[simp] theorem State.unmaskIrq_step (s : State) : (s.unmaskIrq).step = s.step := rfl
@[simp] theorem State.unmaskIrq_unit (s : State) : (s.unmaskIrq).unit = s.unit := rfl
@[simp] theorem State.unmaskIrq_ur (s : State) : (s.unmaskIrq).ur = s.ur := rfl
@[simp] theorem State.unmaskIrq_call (s : State) : (s.unmaskIrq).call = s.call := rfl
@[simp] theorem State.unmaskIrq_life (s : State) : (s.unmaskIrq).life = s.life := rfl
@[simp] theorem State.unmaskIrq_ses (s : State) : (s.unmaskIrq).ses = s.ses := rfl
@[simp] theorem State.unmaskIrq_irqEn (s : State) : (s.unmaskIrq).irqEn = true := rfl
@[simp] theorem State.unmaskIrq_irqPend (s : State) : (s.unmaskIrq).irqPend = s.irqPend := rfl
@[simp] theorem State.unmaskIrq_fault (s : State) : (s.unmaskIrq).fault = s.fault := rfl
@[simp] theorem State.unmaskIrq_faultCause (s : State) : (s.unmaskIrq).faultCause = s.faultCause := rfl
@[simp] theorem State.unmaskIrq_res (s : State) : (s.unmaskIrq).res = s.res := rfl
@[simp] theorem State.unmaskIrq_lastResult (s : State) : (s.unmaskIrq).lastResult = s.lastResult := rfl
@[simp] theorem State.unmaskIrq_lastReport (s : State) : (s.unmaskIrq).lastReport = s.lastReport := rfl
@[simp] theorem State.unmaskIrq_tx (s : State) : (s.unmaskIrq).tx = s.tx := rfl
@[simp] theorem State.unmaskIrq_rx (s : State) : (s.unmaskIrq).rx = s.rx := rfl
@[simp] theorem State.unmaskIrq_hostReq (s : State) : (s.unmaskIrq).hostReq = s.hostReq := rfl
@[simp] theorem State.unmaskIrq_hostWait (s : State) : (s.unmaskIrq).hostWait = s.hostWait := rfl
@[simp] theorem State.unmaskIrq_inbox (s : State) : (s.unmaskIrq).inbox = s.inbox := rfl
@[simp] theorem State.unmaskIrq_trace (s : State) : (s.unmaskIrq).trace = s.trace := rfl
@[simp] theorem State.unmaskIrq_clock (s : State) : (s.unmaskIrq).clock = s.clock := rfl
@[simp] theorem State.unmaskIrq_portLog (s : State) : (s.unmaskIrq).portLog = s.portLog := rfl
@[simp] theorem State.unmaskIrq_freeCount (s : State) : (s.unmaskIrq).freeCount = s.freeCount := rfl

/-! ## `State.releaseSession` -/

@[simp] theorem State.releaseSession_par (s : State) : (s.releaseSession).par = s.par := rfl
@[simp] theorem State.releaseSession_step (s : State) : (s.releaseSession).step = s.step := rfl
@[simp] theorem State.releaseSession_unit (s : State) : (s.releaseSession).unit = s.unit := rfl
@[simp] theorem State.releaseSession_ur (s : State) : (s.releaseSession).ur = s.ur := rfl
@[simp] theorem State.releaseSession_call (s : State) : (s.releaseSession).call = s.call := rfl
@[simp] theorem State.releaseSession_life (s : State) : (s.releaseSession).life = s.life := rfl
@[simp] theorem State.releaseSession_ses (s : State) : (s.releaseSession).ses = {} := rfl
@[simp] theorem State.releaseSession_irqEn (s : State) : (s.releaseSession).irqEn = s.irqEn := rfl
@[simp] theorem State.releaseSession_irqPend (s : State) : (s.releaseSession).irqPend = s.irqPend := rfl
@[simp] theorem State.releaseSession_fault (s : State) : (s.releaseSession).fault = s.fault := rfl
@[simp] theorem State.releaseSession_faultCause (s : State) : (s.releaseSession).faultCause = s.faultCause := rfl
@[simp] theorem State.releaseSession_res (s : State) : (s.releaseSession).res = { s.res with pinRst := none, pinInt := none } := rfl
@[simp] theorem State.releaseSession_lastResult (s : State) : (s.releaseSession).lastResult = s.lastResult := rfl
@[simp] theorem State.releaseSession_lastReport (s : State) : (s.releaseSession).lastReport = none := rfl
@[simp] theorem State.releaseSession_tx (s : State) : (s.releaseSession).tx = s.tx := rfl
@[simp] theorem State.releaseSession_rx (s : State) : (s.releaseSession).rx = s.rx := rfl
@[simp] theorem State.releaseSession_hostReq (s : State) : (s.releaseSession).hostReq = s.hostReq := rfl
@[simp] theorem State.releaseSession_hostWait (s : State) : (s.releaseSession).hostWait = s.hostWait := rfl
@[simp] theorem State.releaseSession_inbox (s : State) : (s.releaseSession).inbox = s.inbox := rfl
@[simp] theorem State.releaseSession_trace (s : State) : (s.releaseSession).trace = s.trace := rfl
@[simp] theorem State.releaseSession_clock (s : State) : (s.releaseSession).clock = s.clock := rfl
@[simp] theorem State.releaseSession_portLog (s : State) : (s.releaseSession).portLog = s.portLog := rfl
@[simp] theorem State.releaseSession_freeCount (s : State) : (s.releaseSession).freeCount = s.freeCount := rfl

/-! ## `State.takeRequest` -/

@[simp] theorem State.takeRequest_par (l : Label) (s : State) : (s.takeRequest l).par = s.par := rfl
@[simp] theorem State.takeRequest_step (l : Label) (s : State) : (s.takeRequest l).step = some l := rfl
@[simp] theorem State.takeRequest_unit (l : Label) (s : State) : (s.takeRequest l).unit = s.unit := rfl
@[simp] theorem State.takeRequest_ur (l : Label) (s : State) : (s.takeRequest l).ur = none := rfl
@[simp] theorem State.takeRequest_call (l : Label) (s : State) : (s.takeRequest l).call = s.call := rfl
@[simp] theorem State.takeRequest_life (l : Label) (s : State) : (s.takeRequest l).life = s.life := rfl
@[simp] theorem State.takeRequest_ses (l : Label) (s : State) : (s.takeRequest l).ses = s.ses := rfl
@[simp] theorem State.takeRequest_irqEn (l : Label) (s : State) : (s.takeRequest l).irqEn = s.irqEn := rfl
@[simp] theorem State.takeRequest_irqPend (l : Label) (s : State) : (s.takeRequest l).irqPend = s.irqPend := rfl
@[simp] theorem State.takeRequest_fault (l : Label) (s : State) : (s.takeRequest l).fault = s.fault := rfl
@[simp] theorem State.takeRequest_faultCause (l : Label) (s : State) : (s.takeRequest l).faultCause = s.faultCause := rfl
@[simp] theorem State.takeRequest_res (l : Label) (s : State) : (s.takeRequest l).res = s.res := rfl
@[simp] theorem State.takeRequest_lastResult (l : Label) (s : State) : (s.takeRequest l).lastResult = s.lastResult := rfl
@[simp] theorem State.takeRequest_lastReport (l : Label) (s : State) : (s.takeRequest l).lastReport = s.lastReport := rfl
@[simp] theorem State.takeRequest_tx (l : Label) (s : State) : (s.takeRequest l).tx = s.tx := rfl
@[simp] theorem State.takeRequest_rx (l : Label) (s : State) : (s.takeRequest l).rx = none := rfl
@[simp] theorem State.takeRequest_hostReq (l : Label) (s : State) : (s.takeRequest l).hostReq = s.hostReq := rfl
@[simp] theorem State.takeRequest_hostWait (l : Label) (s : State) : (s.takeRequest l).hostWait = s.hostWait := rfl
@[simp] theorem State.takeRequest_inbox (l : Label) (s : State) : (s.takeRequest l).inbox = s.inbox := rfl
@[simp] theorem State.takeRequest_trace (l : Label) (s : State) : (s.takeRequest l).trace = s.trace := rfl
@[simp] theorem State.takeRequest_clock (l : Label) (s : State) : (s.takeRequest l).clock = s.clock := rfl
@[simp] theorem State.takeRequest_portLog (l : Label) (s : State) : (s.takeRequest l).portLog = s.portLog := rfl
@[simp] theorem State.takeRequest_freeCount (l : Label) (s : State) : (s.takeRequest l).freeCount = s.freeCount := rfl

/-! ## `State.enterDispatch` -/

@[simp] theorem State.enterDispatch_par (s : State) : (s.enterDispatch).par = s.par := rfl
@[simp] theorem State.enterDispatch_step (s : State) : (s.enterDispatch).step = some .i1 := rfl
@[simp] theorem State.enterDispatch_unit (s : State) : (s.enterDispatch).unit = s.unit := rfl
@[simp] theorem State.enterDispatch_ur (s : State) : (s.enterDispatch).ur = none := rfl
@[simp] theorem State.enterDispatch_call (s : State) : (s.enterDispatch).call = s.call := rfl
@[simp] theorem State.enterDispatch_life (s : State) : (s.enterDispatch).life = s.life := rfl
@[simp] theorem State.enterDispatch_ses (s : State) : (s.enterDispatch).ses = s.ses := rfl
@[simp] theorem State.enterDispatch_irqEn (s : State) : (s.enterDispatch).irqEn = s.irqEn := rfl
@[simp] theorem State.enterDispatch_irqPend (s : State) : (s.enterDispatch).irqPend = s.irqPend := rfl
@[simp] theorem State.enterDispatch_fault (s : State) : (s.enterDispatch).fault = s.fault := rfl
@[simp] theorem State.enterDispatch_faultCause (s : State) : (s.enterDispatch).faultCause = s.faultCause := rfl
@[simp] theorem State.enterDispatch_res (s : State) : (s.enterDispatch).res = s.res := rfl
@[simp] theorem State.enterDispatch_lastResult (s : State) : (s.enterDispatch).lastResult = s.lastResult := rfl
@[simp] theorem State.enterDispatch_lastReport (s : State) : (s.enterDispatch).lastReport = s.lastReport := rfl
@[simp] theorem State.enterDispatch_tx (s : State) : (s.enterDispatch).tx = s.tx := rfl
@[simp] theorem State.enterDispatch_rx (s : State) : (s.enterDispatch).rx = s.rx := rfl
@[simp] theorem State.enterDispatch_hostReq (s : State) : (s.enterDispatch).hostReq = s.hostReq := rfl
@[simp] theorem State.enterDispatch_hostWait (s : State) : (s.enterDispatch).hostWait = s.hostWait := rfl
@[simp] theorem State.enterDispatch_inbox (s : State) : (s.enterDispatch).inbox = s.inbox := rfl
@[simp] theorem State.enterDispatch_trace (s : State) : (s.enterDispatch).trace = s.trace := rfl
@[simp] theorem State.enterDispatch_clock (s : State) : (s.enterDispatch).clock = s.clock := rfl
@[simp] theorem State.enterDispatch_portLog (s : State) : (s.enterDispatch).portLog = s.portLog := rfl
@[simp] theorem State.enterDispatch_freeCount (s : State) : (s.enterDispatch).freeCount = s.freeCount := rfl

/-! ## `State.unitReturn` -/

@[simp] theorem State.unitReturn_par (r : UnitResult) (s : State) : (s.unitReturn r).par = s.par := rfl
@[simp] theorem State.unitReturn_step (r : UnitResult) (s : State) : (s.unitReturn r).step = s.step := rfl
@[simp] theorem State.unitReturn_unit (r : UnitResult) (s : State) : (s.unitReturn r).unit = none := rfl
@[simp] theorem State.unitReturn_ur (r : UnitResult) (s : State) : (s.unitReturn r).ur = some r := rfl
@[simp] theorem State.unitReturn_call (r : UnitResult) (s : State) : (s.unitReturn r).call = s.call := rfl
@[simp] theorem State.unitReturn_life (r : UnitResult) (s : State) : (s.unitReturn r).life = s.life := rfl
@[simp] theorem State.unitReturn_ses (r : UnitResult) (s : State) : (s.unitReturn r).ses = s.ses := rfl
@[simp] theorem State.unitReturn_irqEn (r : UnitResult) (s : State) : (s.unitReturn r).irqEn = s.irqEn := rfl
@[simp] theorem State.unitReturn_irqPend (r : UnitResult) (s : State) : (s.unitReturn r).irqPend = s.irqPend := rfl
@[simp] theorem State.unitReturn_fault (r : UnitResult) (s : State) : (s.unitReturn r).fault = s.fault := rfl
@[simp] theorem State.unitReturn_faultCause (r : UnitResult) (s : State) : (s.unitReturn r).faultCause = s.faultCause := rfl
@[simp] theorem State.unitReturn_res (r : UnitResult) (s : State) : (s.unitReturn r).res = s.res := rfl
@[simp] theorem State.unitReturn_lastResult (r : UnitResult) (s : State) : (s.unitReturn r).lastResult = s.lastResult := rfl
@[simp] theorem State.unitReturn_lastReport (r : UnitResult) (s : State) : (s.unitReturn r).lastReport = s.lastReport := rfl
@[simp] theorem State.unitReturn_tx (r : UnitResult) (s : State) : (s.unitReturn r).tx = s.tx := rfl
@[simp] theorem State.unitReturn_rx (r : UnitResult) (s : State) : (s.unitReturn r).rx = s.rx := rfl
@[simp] theorem State.unitReturn_hostReq (r : UnitResult) (s : State) : (s.unitReturn r).hostReq = s.hostReq := rfl
@[simp] theorem State.unitReturn_hostWait (r : UnitResult) (s : State) : (s.unitReturn r).hostWait = s.hostWait := rfl
@[simp] theorem State.unitReturn_inbox (r : UnitResult) (s : State) : (s.unitReturn r).inbox = s.inbox := rfl
@[simp] theorem State.unitReturn_trace (r : UnitResult) (s : State) : (s.unitReturn r).trace = s.trace := rfl
@[simp] theorem State.unitReturn_clock (r : UnitResult) (s : State) : (s.unitReturn r).clock = s.clock := rfl
@[simp] theorem State.unitReturn_portLog (r : UnitResult) (s : State) : (s.unitReturn r).portLog = s.portLog := rfl
@[simp] theorem State.unitReturn_freeCount (r : UnitResult) (s : State) : (s.unitReturn r).freeCount = s.freeCount := rfl

/-! ## `State.unitGoto` -/

@[simp] theorem State.unitGoto_par (op : UnitOp) (t : TStep) (s : State) : (s.unitGoto op t).par = s.par := rfl
@[simp] theorem State.unitGoto_step (op : UnitOp) (t : TStep) (s : State) : (s.unitGoto op t).step = s.step := rfl
@[simp] theorem State.unitGoto_unit (op : UnitOp) (t : TStep) (s : State) : (s.unitGoto op t).unit = some (op, t) := rfl
@[simp] theorem State.unitGoto_ur (op : UnitOp) (t : TStep) (s : State) : (s.unitGoto op t).ur = s.ur := rfl
@[simp] theorem State.unitGoto_call (op : UnitOp) (t : TStep) (s : State) : (s.unitGoto op t).call = s.call := rfl
@[simp] theorem State.unitGoto_life (op : UnitOp) (t : TStep) (s : State) : (s.unitGoto op t).life = s.life := rfl
@[simp] theorem State.unitGoto_ses (op : UnitOp) (t : TStep) (s : State) : (s.unitGoto op t).ses = s.ses := rfl
@[simp] theorem State.unitGoto_irqEn (op : UnitOp) (t : TStep) (s : State) : (s.unitGoto op t).irqEn = s.irqEn := rfl
@[simp] theorem State.unitGoto_irqPend (op : UnitOp) (t : TStep) (s : State) : (s.unitGoto op t).irqPend = s.irqPend := rfl
@[simp] theorem State.unitGoto_fault (op : UnitOp) (t : TStep) (s : State) : (s.unitGoto op t).fault = s.fault := rfl
@[simp] theorem State.unitGoto_faultCause (op : UnitOp) (t : TStep) (s : State) : (s.unitGoto op t).faultCause = s.faultCause := rfl
@[simp] theorem State.unitGoto_res (op : UnitOp) (t : TStep) (s : State) : (s.unitGoto op t).res = s.res := rfl
@[simp] theorem State.unitGoto_lastResult (op : UnitOp) (t : TStep) (s : State) : (s.unitGoto op t).lastResult = s.lastResult := rfl
@[simp] theorem State.unitGoto_lastReport (op : UnitOp) (t : TStep) (s : State) : (s.unitGoto op t).lastReport = s.lastReport := rfl
@[simp] theorem State.unitGoto_tx (op : UnitOp) (t : TStep) (s : State) : (s.unitGoto op t).tx = s.tx := rfl
@[simp] theorem State.unitGoto_rx (op : UnitOp) (t : TStep) (s : State) : (s.unitGoto op t).rx = s.rx := rfl
@[simp] theorem State.unitGoto_hostReq (op : UnitOp) (t : TStep) (s : State) : (s.unitGoto op t).hostReq = s.hostReq := rfl
@[simp] theorem State.unitGoto_hostWait (op : UnitOp) (t : TStep) (s : State) : (s.unitGoto op t).hostWait = s.hostWait := rfl
@[simp] theorem State.unitGoto_inbox (op : UnitOp) (t : TStep) (s : State) : (s.unitGoto op t).inbox = s.inbox := rfl
@[simp] theorem State.unitGoto_trace (op : UnitOp) (t : TStep) (s : State) : (s.unitGoto op t).trace = s.trace := rfl
@[simp] theorem State.unitGoto_clock (op : UnitOp) (t : TStep) (s : State) : (s.unitGoto op t).clock = s.clock := rfl
@[simp] theorem State.unitGoto_portLog (op : UnitOp) (t : TStep) (s : State) : (s.unitGoto op t).portLog = s.portLog := rfl
@[simp] theorem State.unitGoto_freeCount (op : UnitOp) (t : TStep) (s : State) : (s.unitGoto op t).freeCount = s.freeCount := rfl

/-! ## `State.unitEnter` -/

@[simp] theorem State.unitEnter_par (op : UnitOp) (s : State) : (s.unitEnter op).par = s.par := rfl
@[simp] theorem State.unitEnter_step (op : UnitOp) (s : State) : (s.unitEnter op).step = s.step := rfl
@[simp] theorem State.unitEnter_unit (op : UnitOp) (s : State) : (s.unitEnter op).unit = some (op, .t1) := rfl
@[simp] theorem State.unitEnter_ur (op : UnitOp) (s : State) : (s.unitEnter op).ur = none := rfl
@[simp] theorem State.unitEnter_call (op : UnitOp) (s : State) : (s.unitEnter op).call = s.call := rfl
@[simp] theorem State.unitEnter_life (op : UnitOp) (s : State) : (s.unitEnter op).life = s.life := rfl
@[simp] theorem State.unitEnter_ses (op : UnitOp) (s : State) : (s.unitEnter op).ses = s.ses := rfl
@[simp] theorem State.unitEnter_irqEn (op : UnitOp) (s : State) : (s.unitEnter op).irqEn = s.irqEn := rfl
@[simp] theorem State.unitEnter_irqPend (op : UnitOp) (s : State) : (s.unitEnter op).irqPend = s.irqPend := rfl
@[simp] theorem State.unitEnter_fault (op : UnitOp) (s : State) : (s.unitEnter op).fault = s.fault := rfl
@[simp] theorem State.unitEnter_faultCause (op : UnitOp) (s : State) : (s.unitEnter op).faultCause = s.faultCause := rfl
@[simp] theorem State.unitEnter_res (op : UnitOp) (s : State) : (s.unitEnter op).res = s.res := rfl
@[simp] theorem State.unitEnter_lastResult (op : UnitOp) (s : State) : (s.unitEnter op).lastResult = s.lastResult := rfl
@[simp] theorem State.unitEnter_lastReport (op : UnitOp) (s : State) : (s.unitEnter op).lastReport = s.lastReport := rfl
@[simp] theorem State.unitEnter_tx (op : UnitOp) (s : State) : (s.unitEnter op).tx = s.tx := rfl
@[simp] theorem State.unitEnter_rx (op : UnitOp) (s : State) : (s.unitEnter op).rx = s.rx := rfl
@[simp] theorem State.unitEnter_hostReq (op : UnitOp) (s : State) : (s.unitEnter op).hostReq = s.hostReq := rfl
@[simp] theorem State.unitEnter_hostWait (op : UnitOp) (s : State) : (s.unitEnter op).hostWait = s.hostWait := rfl
@[simp] theorem State.unitEnter_inbox (op : UnitOp) (s : State) : (s.unitEnter op).inbox = s.inbox := rfl
@[simp] theorem State.unitEnter_trace (op : UnitOp) (s : State) : (s.unitEnter op).trace = s.trace := rfl
@[simp] theorem State.unitEnter_clock (op : UnitOp) (s : State) : (s.unitEnter op).clock = s.clock := rfl
@[simp] theorem State.unitEnter_portLog (op : UnitOp) (s : State) : (s.unitEnter op).portLog = s.portLog := rfl
@[simp] theorem State.unitEnter_freeCount (op : UnitOp) (s : State) : (s.unitEnter op).freeCount = s.freeCount := rfl

/-! ## `State.captureConfig` -/

@[simp] theorem State.captureConfig_par (c : ValidCfg) (s : State) : (s.captureConfig c).par = s.par := rfl
@[simp] theorem State.captureConfig_step (c : ValidCfg) (s : State) : (s.captureConfig c).step = s.step := rfl
@[simp] theorem State.captureConfig_unit (c : ValidCfg) (s : State) : (s.captureConfig c).unit = s.unit := rfl
@[simp] theorem State.captureConfig_ur (c : ValidCfg) (s : State) : (s.captureConfig c).ur = s.ur := rfl
@[simp] theorem State.captureConfig_call (c : ValidCfg) (s : State) : (s.captureConfig c).call = s.call := rfl
@[simp] theorem State.captureConfig_life (c : ValidCfg) (s : State) : (s.captureConfig c).life = s.life := rfl
@[simp] theorem State.captureConfig_irqEn (c : ValidCfg) (s : State) : (s.captureConfig c).irqEn = s.irqEn := rfl
@[simp] theorem State.captureConfig_irqPend (c : ValidCfg) (s : State) : (s.captureConfig c).irqPend = s.irqPend := rfl
@[simp] theorem State.captureConfig_fault (c : ValidCfg) (s : State) : (s.captureConfig c).fault = s.fault := rfl
@[simp] theorem State.captureConfig_faultCause (c : ValidCfg) (s : State) : (s.captureConfig c).faultCause = s.faultCause := rfl
@[simp] theorem State.captureConfig_res (c : ValidCfg) (s : State) : (s.captureConfig c).res = s.res := rfl
@[simp] theorem State.captureConfig_lastResult (c : ValidCfg) (s : State) : (s.captureConfig c).lastResult = s.lastResult := rfl
@[simp] theorem State.captureConfig_lastReport (c : ValidCfg) (s : State) : (s.captureConfig c).lastReport = s.lastReport := rfl
@[simp] theorem State.captureConfig_tx (c : ValidCfg) (s : State) : (s.captureConfig c).tx = s.tx := rfl
@[simp] theorem State.captureConfig_rx (c : ValidCfg) (s : State) : (s.captureConfig c).rx = s.rx := rfl
@[simp] theorem State.captureConfig_hostReq (c : ValidCfg) (s : State) : (s.captureConfig c).hostReq = s.hostReq := rfl
@[simp] theorem State.captureConfig_hostWait (c : ValidCfg) (s : State) : (s.captureConfig c).hostWait = s.hostWait := rfl
@[simp] theorem State.captureConfig_inbox (c : ValidCfg) (s : State) : (s.captureConfig c).inbox = s.inbox := rfl
@[simp] theorem State.captureConfig_trace (c : ValidCfg) (s : State) : (s.captureConfig c).trace = s.trace := rfl
@[simp] theorem State.captureConfig_clock (c : ValidCfg) (s : State) : (s.captureConfig c).clock = s.clock := rfl
@[simp] theorem State.captureConfig_portLog (c : ValidCfg) (s : State) : (s.captureConfig c).portLog = s.portLog := rfl
@[simp] theorem State.captureConfig_freeCount (c : ValidCfg) (s : State) : (s.captureConfig c).freeCount = s.freeCount := rfl

/-! ## `State.busReleased` -/

@[simp] theorem State.busReleased_par (s : State) : (s.busReleased).par = s.par := rfl
@[simp] theorem State.busReleased_step (s : State) : (s.busReleased).step = s.step := rfl
@[simp] theorem State.busReleased_unit (s : State) : (s.busReleased).unit = s.unit := rfl
@[simp] theorem State.busReleased_ur (s : State) : (s.busReleased).ur = s.ur := rfl
@[simp] theorem State.busReleased_call (s : State) : (s.busReleased).call = s.call := rfl
@[simp] theorem State.busReleased_life (s : State) : (s.busReleased).life = s.life := rfl
@[simp] theorem State.busReleased_ses (s : State) : (s.busReleased).ses = s.ses := rfl
@[simp] theorem State.busReleased_irqEn (s : State) : (s.busReleased).irqEn = s.irqEn := rfl
@[simp] theorem State.busReleased_irqPend (s : State) : (s.busReleased).irqPend = s.irqPend := rfl
@[simp] theorem State.busReleased_fault (s : State) : (s.busReleased).fault = s.fault := rfl
@[simp] theorem State.busReleased_faultCause (s : State) : (s.busReleased).faultCause = s.faultCause := rfl
@[simp] theorem State.busReleased_res (s : State) : (s.busReleased).res = { s.res with bus := false } := rfl
@[simp] theorem State.busReleased_lastResult (s : State) : (s.busReleased).lastResult = s.lastResult := rfl
@[simp] theorem State.busReleased_lastReport (s : State) : (s.busReleased).lastReport = s.lastReport := rfl
@[simp] theorem State.busReleased_tx (s : State) : (s.busReleased).tx = s.tx := rfl
@[simp] theorem State.busReleased_rx (s : State) : (s.busReleased).rx = s.rx := rfl
@[simp] theorem State.busReleased_hostReq (s : State) : (s.busReleased).hostReq = s.hostReq := rfl
@[simp] theorem State.busReleased_hostWait (s : State) : (s.busReleased).hostWait = s.hostWait := rfl
@[simp] theorem State.busReleased_inbox (s : State) : (s.busReleased).inbox = s.inbox := rfl
@[simp] theorem State.busReleased_trace (s : State) : (s.busReleased).trace = s.trace := rfl
@[simp] theorem State.busReleased_clock (s : State) : (s.busReleased).clock = s.clock := rfl
@[simp] theorem State.busReleased_portLog (s : State) : (s.busReleased).portLog = s.portLog := rfl
@[simp] theorem State.busReleased_freeCount (s : State) : (s.busReleased).freeCount = s.freeCount := rfl

/-! ## `State.irqCfgReleased` -/

@[simp] theorem State.irqCfgReleased_par (s : State) : (s.irqCfgReleased).par = s.par := rfl
@[simp] theorem State.irqCfgReleased_step (s : State) : (s.irqCfgReleased).step = s.step := rfl
@[simp] theorem State.irqCfgReleased_unit (s : State) : (s.irqCfgReleased).unit = s.unit := rfl
@[simp] theorem State.irqCfgReleased_ur (s : State) : (s.irqCfgReleased).ur = s.ur := rfl
@[simp] theorem State.irqCfgReleased_call (s : State) : (s.irqCfgReleased).call = s.call := rfl
@[simp] theorem State.irqCfgReleased_life (s : State) : (s.irqCfgReleased).life = s.life := rfl
@[simp] theorem State.irqCfgReleased_ses (s : State) : (s.irqCfgReleased).ses = s.ses := rfl
@[simp] theorem State.irqCfgReleased_irqEn (s : State) : (s.irqCfgReleased).irqEn = s.irqEn := rfl
@[simp] theorem State.irqCfgReleased_irqPend (s : State) : (s.irqCfgReleased).irqPend = s.irqPend := rfl
@[simp] theorem State.irqCfgReleased_fault (s : State) : (s.irqCfgReleased).fault = s.fault := rfl
@[simp] theorem State.irqCfgReleased_faultCause (s : State) : (s.irqCfgReleased).faultCause = s.faultCause := rfl
@[simp] theorem State.irqCfgReleased_res (s : State) : (s.irqCfgReleased).res = { s.res with irqCfg := false } := rfl
@[simp] theorem State.irqCfgReleased_lastResult (s : State) : (s.irqCfgReleased).lastResult = s.lastResult := rfl
@[simp] theorem State.irqCfgReleased_lastReport (s : State) : (s.irqCfgReleased).lastReport = s.lastReport := rfl
@[simp] theorem State.irqCfgReleased_tx (s : State) : (s.irqCfgReleased).tx = s.tx := rfl
@[simp] theorem State.irqCfgReleased_rx (s : State) : (s.irqCfgReleased).rx = s.rx := rfl
@[simp] theorem State.irqCfgReleased_hostReq (s : State) : (s.irqCfgReleased).hostReq = s.hostReq := rfl
@[simp] theorem State.irqCfgReleased_hostWait (s : State) : (s.irqCfgReleased).hostWait = s.hostWait := rfl
@[simp] theorem State.irqCfgReleased_inbox (s : State) : (s.irqCfgReleased).inbox = s.inbox := rfl
@[simp] theorem State.irqCfgReleased_trace (s : State) : (s.irqCfgReleased).trace = s.trace := rfl
@[simp] theorem State.irqCfgReleased_clock (s : State) : (s.irqCfgReleased).clock = s.clock := rfl
@[simp] theorem State.irqCfgReleased_portLog (s : State) : (s.irqCfgReleased).portLog = s.portLog := rfl
@[simp] theorem State.irqCfgReleased_freeCount (s : State) : (s.irqCfgReleased).freeCount = s.freeCount := rfl

/-! ## `State.hostReleased` -/

@[simp] theorem State.hostReleased_par (s : State) : (s.hostReleased).par = s.par := rfl
@[simp] theorem State.hostReleased_step (s : State) : (s.hostReleased).step = s.step := rfl
@[simp] theorem State.hostReleased_unit (s : State) : (s.hostReleased).unit = s.unit := rfl
@[simp] theorem State.hostReleased_ur (s : State) : (s.hostReleased).ur = s.ur := rfl
@[simp] theorem State.hostReleased_call (s : State) : (s.hostReleased).call = s.call := rfl
@[simp] theorem State.hostReleased_life (s : State) : (s.hostReleased).life = s.life := rfl
@[simp] theorem State.hostReleased_ses (s : State) : (s.hostReleased).ses = s.ses := rfl
@[simp] theorem State.hostReleased_irqEn (s : State) : (s.hostReleased).irqEn = s.irqEn := rfl
@[simp] theorem State.hostReleased_irqPend (s : State) : (s.hostReleased).irqPend = s.irqPend := rfl
@[simp] theorem State.hostReleased_fault (s : State) : (s.hostReleased).fault = s.fault := rfl
@[simp] theorem State.hostReleased_faultCause (s : State) : (s.hostReleased).faultCause = s.faultCause := rfl
@[simp] theorem State.hostReleased_res (s : State) : (s.hostReleased).res = { s.res with host := false } := rfl
@[simp] theorem State.hostReleased_lastResult (s : State) : (s.hostReleased).lastResult = s.lastResult := rfl
@[simp] theorem State.hostReleased_lastReport (s : State) : (s.hostReleased).lastReport = s.lastReport := rfl
@[simp] theorem State.hostReleased_tx (s : State) : (s.hostReleased).tx = s.tx := rfl
@[simp] theorem State.hostReleased_rx (s : State) : (s.hostReleased).rx = s.rx := rfl
@[simp] theorem State.hostReleased_hostReq (s : State) : (s.hostReleased).hostReq = s.hostReq := rfl
@[simp] theorem State.hostReleased_hostWait (s : State) : (s.hostReleased).hostWait = s.hostWait := rfl
@[simp] theorem State.hostReleased_inbox (s : State) : (s.hostReleased).inbox = s.inbox := rfl
@[simp] theorem State.hostReleased_trace (s : State) : (s.hostReleased).trace = s.trace := rfl
@[simp] theorem State.hostReleased_clock (s : State) : (s.hostReleased).clock = s.clock := rfl
@[simp] theorem State.hostReleased_portLog (s : State) : (s.hostReleased).portLog = s.portLog := rfl
@[simp] theorem State.hostReleased_freeCount (s : State) : (s.hostReleased).freeCount = s.freeCount := rfl

/-! ## `State.pinIntReleased` -/

@[simp] theorem State.pinIntReleased_par (s : State) : (s.pinIntReleased).par = s.par := rfl
@[simp] theorem State.pinIntReleased_step (s : State) : (s.pinIntReleased).step = s.step := rfl
@[simp] theorem State.pinIntReleased_unit (s : State) : (s.pinIntReleased).unit = s.unit := rfl
@[simp] theorem State.pinIntReleased_ur (s : State) : (s.pinIntReleased).ur = s.ur := rfl
@[simp] theorem State.pinIntReleased_call (s : State) : (s.pinIntReleased).call = s.call := rfl
@[simp] theorem State.pinIntReleased_life (s : State) : (s.pinIntReleased).life = s.life := rfl
@[simp] theorem State.pinIntReleased_ses (s : State) : (s.pinIntReleased).ses = s.ses := rfl
@[simp] theorem State.pinIntReleased_irqEn (s : State) : (s.pinIntReleased).irqEn = s.irqEn := rfl
@[simp] theorem State.pinIntReleased_irqPend (s : State) : (s.pinIntReleased).irqPend = s.irqPend := rfl
@[simp] theorem State.pinIntReleased_fault (s : State) : (s.pinIntReleased).fault = s.fault := rfl
@[simp] theorem State.pinIntReleased_faultCause (s : State) : (s.pinIntReleased).faultCause = s.faultCause := rfl
@[simp] theorem State.pinIntReleased_res (s : State) : (s.pinIntReleased).res = { s.res with pinInt := none } := rfl
@[simp] theorem State.pinIntReleased_lastResult (s : State) : (s.pinIntReleased).lastResult = s.lastResult := rfl
@[simp] theorem State.pinIntReleased_lastReport (s : State) : (s.pinIntReleased).lastReport = s.lastReport := rfl
@[simp] theorem State.pinIntReleased_tx (s : State) : (s.pinIntReleased).tx = s.tx := rfl
@[simp] theorem State.pinIntReleased_rx (s : State) : (s.pinIntReleased).rx = s.rx := rfl
@[simp] theorem State.pinIntReleased_hostReq (s : State) : (s.pinIntReleased).hostReq = s.hostReq := rfl
@[simp] theorem State.pinIntReleased_hostWait (s : State) : (s.pinIntReleased).hostWait = s.hostWait := rfl
@[simp] theorem State.pinIntReleased_inbox (s : State) : (s.pinIntReleased).inbox = s.inbox := rfl
@[simp] theorem State.pinIntReleased_trace (s : State) : (s.pinIntReleased).trace = s.trace := rfl
@[simp] theorem State.pinIntReleased_clock (s : State) : (s.pinIntReleased).clock = s.clock := rfl
@[simp] theorem State.pinIntReleased_portLog (s : State) : (s.pinIntReleased).portLog = s.portLog := rfl
@[simp] theorem State.pinIntReleased_freeCount (s : State) : (s.pinIntReleased).freeCount = s.freeCount := rfl

/-! ## `State.streamingSet` -/

@[simp] theorem State.streamingSet_par (b : Bool) (s : State) : (s.streamingSet b).par = s.par := rfl
@[simp] theorem State.streamingSet_step (b : Bool) (s : State) : (s.streamingSet b).step = s.step := rfl
@[simp] theorem State.streamingSet_unit (b : Bool) (s : State) : (s.streamingSet b).unit = s.unit := rfl
@[simp] theorem State.streamingSet_ur (b : Bool) (s : State) : (s.streamingSet b).ur = s.ur := rfl
@[simp] theorem State.streamingSet_call (b : Bool) (s : State) : (s.streamingSet b).call = s.call := rfl
@[simp] theorem State.streamingSet_life (b : Bool) (s : State) : (s.streamingSet b).life = s.life := rfl
@[simp] theorem State.streamingSet_ses (b : Bool) (s : State) : (s.streamingSet b).ses = { s.ses with streamingOn := some b } := rfl
@[simp] theorem State.streamingSet_irqEn (b : Bool) (s : State) : (s.streamingSet b).irqEn = s.irqEn := rfl
@[simp] theorem State.streamingSet_irqPend (b : Bool) (s : State) : (s.streamingSet b).irqPend = s.irqPend := rfl
@[simp] theorem State.streamingSet_fault (b : Bool) (s : State) : (s.streamingSet b).fault = s.fault := rfl
@[simp] theorem State.streamingSet_faultCause (b : Bool) (s : State) : (s.streamingSet b).faultCause = s.faultCause := rfl
@[simp] theorem State.streamingSet_res (b : Bool) (s : State) : (s.streamingSet b).res = s.res := rfl
@[simp] theorem State.streamingSet_lastResult (b : Bool) (s : State) : (s.streamingSet b).lastResult = s.lastResult := rfl
@[simp] theorem State.streamingSet_lastReport (b : Bool) (s : State) : (s.streamingSet b).lastReport = s.lastReport := rfl
@[simp] theorem State.streamingSet_tx (b : Bool) (s : State) : (s.streamingSet b).tx = s.tx := rfl
@[simp] theorem State.streamingSet_rx (b : Bool) (s : State) : (s.streamingSet b).rx = s.rx := rfl
@[simp] theorem State.streamingSet_hostReq (b : Bool) (s : State) : (s.streamingSet b).hostReq = s.hostReq := rfl
@[simp] theorem State.streamingSet_hostWait (b : Bool) (s : State) : (s.streamingSet b).hostWait = s.hostWait := rfl
@[simp] theorem State.streamingSet_inbox (b : Bool) (s : State) : (s.streamingSet b).inbox = s.inbox := rfl
@[simp] theorem State.streamingSet_trace (b : Bool) (s : State) : (s.streamingSet b).trace = s.trace := rfl
@[simp] theorem State.streamingSet_clock (b : Bool) (s : State) : (s.streamingSet b).clock = s.clock := rfl
@[simp] theorem State.streamingSet_portLog (b : Bool) (s : State) : (s.streamingSet b).portLog = s.portLog := rfl
@[simp] theorem State.streamingSet_freeCount (b : Bool) (s : State) : (s.streamingSet b).freeCount = s.freeCount := rfl

/-! ## `State.powerSet` -/

@[simp] theorem State.powerSet_par (b : Bool) (s : State) : (s.powerSet b).par = s.par := rfl
@[simp] theorem State.powerSet_step (b : Bool) (s : State) : (s.powerSet b).step = s.step := rfl
@[simp] theorem State.powerSet_unit (b : Bool) (s : State) : (s.powerSet b).unit = s.unit := rfl
@[simp] theorem State.powerSet_ur (b : Bool) (s : State) : (s.powerSet b).ur = s.ur := rfl
@[simp] theorem State.powerSet_call (b : Bool) (s : State) : (s.powerSet b).call = s.call := rfl
@[simp] theorem State.powerSet_life (b : Bool) (s : State) : (s.powerSet b).life = s.life := rfl
@[simp] theorem State.powerSet_ses (b : Bool) (s : State) : (s.powerSet b).ses = { s.ses with powerOn := some b } := rfl
@[simp] theorem State.powerSet_irqEn (b : Bool) (s : State) : (s.powerSet b).irqEn = s.irqEn := rfl
@[simp] theorem State.powerSet_irqPend (b : Bool) (s : State) : (s.powerSet b).irqPend = s.irqPend := rfl
@[simp] theorem State.powerSet_fault (b : Bool) (s : State) : (s.powerSet b).fault = s.fault := rfl
@[simp] theorem State.powerSet_faultCause (b : Bool) (s : State) : (s.powerSet b).faultCause = s.faultCause := rfl
@[simp] theorem State.powerSet_res (b : Bool) (s : State) : (s.powerSet b).res = s.res := rfl
@[simp] theorem State.powerSet_lastResult (b : Bool) (s : State) : (s.powerSet b).lastResult = s.lastResult := rfl
@[simp] theorem State.powerSet_lastReport (b : Bool) (s : State) : (s.powerSet b).lastReport = s.lastReport := rfl
@[simp] theorem State.powerSet_tx (b : Bool) (s : State) : (s.powerSet b).tx = s.tx := rfl
@[simp] theorem State.powerSet_rx (b : Bool) (s : State) : (s.powerSet b).rx = s.rx := rfl
@[simp] theorem State.powerSet_hostReq (b : Bool) (s : State) : (s.powerSet b).hostReq = s.hostReq := rfl
@[simp] theorem State.powerSet_hostWait (b : Bool) (s : State) : (s.powerSet b).hostWait = s.hostWait := rfl
@[simp] theorem State.powerSet_inbox (b : Bool) (s : State) : (s.powerSet b).inbox = s.inbox := rfl
@[simp] theorem State.powerSet_trace (b : Bool) (s : State) : (s.powerSet b).trace = s.trace := rfl
@[simp] theorem State.powerSet_clock (b : Bool) (s : State) : (s.powerSet b).clock = s.clock := rfl
@[simp] theorem State.powerSet_portLog (b : Bool) (s : State) : (s.powerSet b).portLog = s.portLog := rfl
@[simp] theorem State.powerSet_freeCount (b : Bool) (s : State) : (s.powerSet b).freeCount = s.freeCount := rfl

/-! ## `State.popTurn` -/

@[simp] theorem State.popTurn_par (s : State) : (s.popTurn).par = s.par := by
  unfold State.popTurn; split <;> rfl
@[simp] theorem State.popTurn_step (s : State) : (s.popTurn).step = s.step := by
  unfold State.popTurn; split <;> rfl
@[simp] theorem State.popTurn_unit (s : State) : (s.popTurn).unit = s.unit := by
  unfold State.popTurn; split <;> rfl
@[simp] theorem State.popTurn_ur (s : State) : (s.popTurn).ur = s.ur := by
  unfold State.popTurn; split <;> rfl
@[simp] theorem State.popTurn_call (s : State) : (s.popTurn).call = s.call := by
  unfold State.popTurn; split <;> rfl
@[simp] theorem State.popTurn_life (s : State) : (s.popTurn).life = s.life := by
  unfold State.popTurn; split <;> rfl
@[simp] theorem State.popTurn_ses (s : State) : (s.popTurn).ses = s.ses := by
  unfold State.popTurn; split <;> rfl
@[simp] theorem State.popTurn_irqEn (s : State) : (s.popTurn).irqEn = s.irqEn := by
  unfold State.popTurn; split <;> rfl
@[simp] theorem State.popTurn_irqPend (s : State) : (s.popTurn).irqPend = s.irqPend := by
  unfold State.popTurn; split <;> rfl
@[simp] theorem State.popTurn_fault (s : State) : (s.popTurn).fault = s.fault := by
  unfold State.popTurn; split <;> rfl
@[simp] theorem State.popTurn_faultCause (s : State) : (s.popTurn).faultCause = s.faultCause := by
  unfold State.popTurn; split <;> rfl
@[simp] theorem State.popTurn_res (s : State) : (s.popTurn).res = s.res := by
  unfold State.popTurn; split <;> rfl
@[simp] theorem State.popTurn_lastResult (s : State) : (s.popTurn).lastResult = s.lastResult := by
  unfold State.popTurn; split <;> rfl
@[simp] theorem State.popTurn_lastReport (s : State) : (s.popTurn).lastReport = s.lastReport := by
  unfold State.popTurn; split <;> rfl
@[simp] theorem State.popTurn_tx (s : State) : (s.popTurn).tx = s.tx := by
  unfold State.popTurn; split <;> rfl
@[simp] theorem State.popTurn_rx (s : State) : (s.popTurn).rx = s.rx := by
  unfold State.popTurn; split <;> rfl
@[simp] theorem State.popTurn_hostReq (s : State) : (s.popTurn).hostReq = s.hostReq := by
  unfold State.popTurn; split <;> rfl
@[simp] theorem State.popTurn_hostWait (s : State) : (s.popTurn).hostWait = s.hostWait := by
  unfold State.popTurn; split <;> rfl
@[simp] theorem State.popTurn_trace (s : State) : (s.popTurn).trace = s.trace := by
  unfold State.popTurn; split <;> rfl
@[simp] theorem State.popTurn_clock (s : State) : (s.popTurn).clock = s.clock := by
  unfold State.popTurn; split <;> rfl
@[simp] theorem State.popTurn_portLog (s : State) : (s.popTurn).portLog = s.portLog := by
  unfold State.popTurn; split <;> rfl
@[simp] theorem State.popTurn_freeCount (s : State) : (s.popTurn).freeCount = s.freeCount := by
  unfold State.popTurn; split <;> rfl

end Sys2Proof.Machine
end

