-- ==== Sys2Proof/Laws/Sequencer.lean ====
section
/-! SUPPORT. Once for each shared operation of the sequencer, what it can do: the inversion lemmas of `tick` and
`advance`, and the rules of `run`. -/

namespace Sys2Proof.Machine

/-- The three ways a tick moves: an answer is taken, a move that does not fit is dropped, the sequencer advances. -/
theorem tick_moved_cases {s t : State} (h : tick s = .moved t) :
    s.asyncNext = false ∧
      ((∃ c extra r rest, s.call = some c ∧ s.inbox = .reply extra r :: rest ∧ c.fits r = true ∧
          t = ({ s with inbox := rest }).takeAnswer c extra r) ∨
        (∃ c i rest, s.call = some c ∧ s.inbox = i :: rest ∧ t = { s with inbox := rest }) ∨
        (s.call = none ∧ s.popTurn.advance = some (.ok t))) := by
  unfold tick at h
  split at h
  · cases h
  · rename_i ha
    refine ⟨by simpa using ha, ?_⟩
    split at h
    · rename_i c hc
      split at h
      · rename_i extra r rest hi
        split at h
        · rename_i hf
          cases h
          exact .inl ⟨c, extra, r, rest, hc, hi, hf, rfl⟩
        · cases h
          exact .inr (.inl ⟨c, _, rest, hc, hi, rfl⟩)
      · rename_i rest hi
        cases h
        exact .inr (.inl ⟨c, _, rest, hc, hi, rfl⟩)
      · cases h
    · rename_i hc
      split at h
      · cases h
      · rename_i t' ha'
        cases h
        exact .inr (.inr ⟨hc, ha'⟩)
      · cases h

/-- A tick faults only where the sequencer advances into a fault. -/
theorem tick_fault_cases {s : State} {f : Fault} (h : tick s = .fault f) :
    s.call = none ∧ s.popTurn.advance = some (.error f) := by
  unfold tick at h
  split at h
  · cases h
  · split at h
    · split at h
      · split at h <;> cases h
      · cases h
      · cases h
    · rename_i hc
      split at h
      · cases h
      · cases h
      · rename_i f' ha'
        cases h
        exact ⟨hc, ha'⟩

/-- The three places the sequencer advances from. -/
theorem advance_cases {s : State} {r : Except Fault State} (h : s.advance = some r) :
    (∃ op t, s.unit = some (op, t) ∧ r = s.unitStep op t) ∨
      (∃ l u, s.unit = none ∧ s.step = some l ∧ s.ur = some u ∧ r = labelReturn l u s) ∨
        (∃ l, s.unit = none ∧ s.step = some l ∧ s.ur = none ∧ r = labelBegin l s) := by
  unfold State.advance at h
  split at h
  · rename_i op t hu
    cases h
    exact .inl ⟨op, t, hu, rfl⟩
  · cases h
  · rename_i l hu hl
    split at h
    · rename_i u hr
      cases h
      exact .inr (.inl ⟨l, u, hu, hl, hr, rfl⟩)
    · rename_i hr
      cases h
      exact .inr (.inr ⟨l, hu, hl, hr, rfl⟩)

@[simp] theorem run_zero (going : State → Bool) (s : State) : run going 0 s = .next s := rfl

/-- A run stops where its instruction is done. -/
theorem run_done {going : State → Bool} {s : State} (n : Nat) (h : going s = false) : run going n s = .next s := by
  cases n <;> simp [run, h]

/-- A run goes on with every tick that moves. -/
theorem run_moved {going : State → Bool} {s t : State} (n : Nat) (hg : going s = true) (h : tick s = .moved t) :
    run going (n + 1) s = run going n t := by
  simp [run, hg, h]

/-- A run stops where the sequencer has no move. -/
theorem run_rest {going : State → Bool} {s : State} (n : Nat) (h : tick s = .rest) : run going n s = .next s := by
  cases n with
  | zero => rfl
  | succ n => simp [run, h]

/-- The next answer goes to the outstanding call that it fits. -/
theorem run_answer {going : State → Bool} {s : State} {c : Call} {d : Nat} {r : Reply} {rest : List Input} (n : Nat)
    (hg : going s = true) (hc : s.call = some c) (hi : s.inbox = .reply d r :: rest) (hf : c.fits r = true) :
    run going (n + 1) s = run going n (({ s with inbox := rest }).takeAnswer c d r) := by
  apply run_moved n hg
  simp [tick, State.asyncNext, hc, hi, hf, Input.isAsync]

/-- With no call outstanding and no other agent first, the sequencer advances. -/
theorem run_advance {going : State → Bool} {s t : State} (n : Nat) (hg : going s = true) (hc : s.call = none)
    (ha : s.asyncNext = false) (h : s.popTurn.advance = some (.ok t)) : run going (n + 1) s = run going n t := by
  apply run_moved n hg
  simp [tick, hc, ha, h]

/-- What every tick of a run keeps holds at its end. -/
theorem run_keeps {P : State → Prop} {going : State → Bool}
    (hk : ∀ a b, going a = true → tick a = .moved b → P a → P b) {n : Nat} {s t : State} (hs : P s)
    (h : run going n s = .next t) : P t := by
  induction n generalizing s with
  | zero => cases h; exact hs
  | succ n ih =>
    unfold run at h
    split at h
    · rename_i hg
      split at h
      · rename_i u hu
        exact ih (hk s u hg hu hs) h
      · cases h; exact hs
      · cases h
    · cases h; exact hs

/-- A run faults only at a state that keeps what its ticks keep. -/
theorem run_faults {P : State → Prop} {going : State → Bool}
    (hk : ∀ a b, going a = true → tick a = .moved b → P a → P b) {n : Nat} {s : State} {f : Fault} (hs : P s)
    (h : run going n s = .fault f) : ∃ a, P a ∧ tick a = .fault f := by
  induction n generalizing s with
  | zero => cases h
  | succ n ih =>
    unfold run at h
    split at h
    · rename_i hg
      split at h
      · rename_i u hu
        exact ih (hk s u hg hu hs) h
      · cases h
      · rename_i f' hf
        cases h
        exact ⟨s, hs, hf⟩
    · cases h

/-- A run never refuses. -/
theorem run_never_refuses {going : State → Bool} {n : Nat} {s : State} {r : Refusal} :
    run going n s ≠ .refused r := by
  induction n generalizing s with
  | zero => simp
  | succ n ih =>
    unfold run
    split
    · split
      · exact ih
      · simp
      · simp
    · simp

/-- At rest: no step, no unit operation, no outstanding call. -/
theorem atRest_iff (s : State) : s.atRest = true ↔ s.step = none ∧ s.unit = none ∧ s.call = none := by
  simp [State.atRest, and_assoc]

/-- `Except` values that a step answers: a state, or the model fault of R13. -/
theorem accept_cases (op : Op) (l : Label) (s : State) :
    (s.refusalOf op = none ∧ s.accept op l = s.goto l) ∨
      ∃ r, s.refusalOf op = some r ∧ s.accept op l = s.finish r none := by
  unfold State.accept
  cases h : s.refusalOf op with
  | none => exact .inl ⟨rfl, rfl⟩
  | some r => exact .inr ⟨r, rfl, rfl⟩

end Sys2Proof.Machine
end

