-- ==== Sys2Proof/Laws/Ops.lean ====
section
/-! SUPPORT. Once for each shared operation, what it can do: the answers, the sub-steps of `transact`, completion,
release steps, the arbiter, the request port, the interrupt latch and the entry of each kind of instruction. -/

namespace Sys2Proof.Machine

/-! ## Reading a register (R13) -/

/-- A step that reads one register answers exactly where the register holds a value. -/
theorem readReg_map_ok {α β : Type} {n : RegName} {o : Option α} {f : α → β} {t : β} :
    (readReg n o).map f = .ok t ↔ ∃ v, o = some v ∧ f v = t := by
  cases o <;> simp [readReg, Except.map]

/-- A step that goes on after reading a register answers exactly where the register holds a value and the rest answers. -/
theorem readReg_bind_ok {α β : Type} {n : RegName} {o : Option α} {f : α → Except Fault β} {t : β} :
    (readReg n o).bind f = .ok t ↔ ∃ v, o = some v ∧ f v = .ok t := by
  cases o <;> simp [readReg, Except.bind]

/-! ## Answers -/

/-- The answer of a call that a unit operation made goes to the unit operation. -/
theorem takeAnswer_unit {s : State} {op : UnitOp} {u : TStep} (h : s.unit = some (op, u)) (c : Call) (d : Nat)
    (r : Reply) : s.takeAnswer c d r = (s.answered c d r).unitAnswer op u r := by
  simp [State.takeAnswer, h]

/-- The answer of a call that a step made goes to the step. -/
theorem takeAnswer_label {s : State} {l : Label} (hu : s.unit = none) (hl : s.step = some l) (c : Call) (d : Nat)
    (r : Reply) : s.takeAnswer c d r = labelAnswer l r (s.answered c d r) := by
  simp [State.takeAnswer, hu, hl]

/-- A received answer fits a receive when its count is not the requested one, or its bytes are enough. -/
theorem fits_received (n : Nat) (c : Int) (b : List Byte) :
    Call.fits (.busRecv n) (.received c b) = true ↔ c ≠ (n : Int) ∨ n ≤ b.length := by
  by_cases h : c = (n : Int) <;> simp [Call.fits, h]

/-- The trace keeps of a good receive the bytes of the frame (R111). -/
theorem record_received (n : Nat) (b : List Byte) :
    Call.record (.busRecv n) (.received (n : Int) b) = .received (n : Int) (b.take n) := by
  simp [Call.record]

/-! ## The sub-steps of a unit operation (R110 to R112, R142) -/

/-- T1 answered: a wrong count fails, a write without a response is done, anything else waits at T2. -/
theorem sendEnd_cases (op : UnitOp) (c : Int) (s : State) :
    (c ≠ s.par.lit.cmdLen ∧
        s.sendEnd op c = ({ s with tx := none } : State).unitReturn (.err (.transportSend s.par.lit.cmdLen c))) ∨
      (c = s.par.lit.cmdLen ∧ op.isWrite = true ∧ s.par.writeExpectsResponse = false ∧
        s.sendEnd op c = ({ s with tx := none } : State).unitReturn (.ok .unit)) ∨
      (c = s.par.lit.cmdLen ∧ (op.isWrite = false ∨ s.par.writeExpectsResponse = true) ∧
        s.sendEnd op c = ({ s with tx := none } : State).unitGoto op .t2) := by
  by_cases h : c = s.par.lit.cmdLen
  · cases hw : op.isWrite <;> cases he : s.par.writeExpectsResponse <;> simp [State.sendEnd, hw, he, h]
  · exact .inl ⟨h, by simp [State.sendEnd, h]⟩

/-- T3 answered: a wrong count fails and leaves RX alone, a right one writes RX. -/
theorem recvEnd_cases (op : UnitOp) (c : Int) (b : List Byte) (s : State) :
    (c ≠ s.par.lit.cmdLen ∧ s.recvEnd op c b = s.unitReturn (.err (.transportRecv s.par.lit.cmdLen c))) ∨
      (c = s.par.lit.cmdLen ∧
        s.recvEnd op c b = ({ s with rx := some (b.take s.par.lit.cmdLen) } : State).unitGoto op .t4) := by
  by_cases h : c = s.par.lit.cmdLen
  · exact .inr ⟨h, by simp [State.recvEnd, h]⟩
  · exact .inl ⟨h, by simp [State.recvEnd, h]⟩

/-- T4: the marker decides. -/
theorem checkMarker_cases {op : UnitOp} {s : State} {f : List Byte} (h : s.rx = some f) :
    (byteAt f 0 ≠ s.par.lit.mkResponse ∧ s.checkMarker op = .ok (s.unitReturn (.err (.protocol (byteAt f 0))))) ∨
      (byteAt f 0 = s.par.lit.mkResponse ∧ s.checkMarker op = .ok (s.unitReturn (.ok (unitValue s.par op f)))) := by
  by_cases hm : byteAt f 0 = s.par.lit.mkResponse
  · exact .inr ⟨hm, by simp [State.checkMarker, readReg, Except.map, h, hm]⟩
  · exact .inl ⟨hm, by simp [State.checkMarker, readReg, Except.map, h, hm]⟩

/-! ## Completion and release -/

/-- The end of a host request answers the host (R21). -/
theorem finish_request {s : State} (h : s.curOp ≠ .dispatch) (r : ResultCode) (v : Option Bool) :
    s.finish r v = { s.emit (.respond r v) with step := none, ur := none, lastResult := r } := by
  simp [State.finish, h]

/-- The end of a DISPATCH answers no one (R21, R273). -/
theorem finish_dispatch {s : State} (h : s.curOp = .dispatch) (r : ResultCode) (v : Option Bool) :
    s.finish r v = { s with step := none, ur := none, lastResult := r } := by
  simp [State.finish, h]

/-- A release step calls its primitive exactly when its resource is held (R207, R218). -/
theorem releaseBegin_cases (held : Bool) (c : Call) (next : Label) (s : State) :
    (held = true ∧ s.releaseBegin held c next = s.issue c) ∨
      (held = false ∧ s.releaseBegin held c next = s.goto next) := by
  cases held
  · exact .inr ⟨rfl, rfl⟩
  · exact .inl ⟨rfl, rfl⟩

/-! ## The events of a report (R242) -/

/-- An answered event is the last one and ends the DISPATCH, or the next one follows at the next sub-step. -/
theorem eventEmitted_cases (j : Nat) (evs : List HostEvent) (s : State) :
    (evs.tail = [] ∧ s.eventEmitted j evs = s.finish .ok none) ∨
      (∃ e rest, evs.tail = e :: rest ∧ s.eventEmitted j evs = s.goto (.i6e (j + 1) (e :: rest))) := by
  unfold State.eventEmitted
  split
  · rename_i h
    exact .inl ⟨h, rfl⟩
  · rename_i e rest h
    exact .inr ⟨e, rest, h, rfl⟩

/-! ## The arbiter, the request port and the interrupt latch -/

/-- A turn is taken only when it comes next. -/
theorem popTurn_cases (s : State) :
    (∃ b rest, s.inbox = .turn b :: rest ∧ s.popTurn = { s with inbox := rest }) ∨
      ((∀ b rest, s.inbox ≠ .turn b :: rest) ∧ s.popTurn = s) := by
  unfold State.popTurn
  split
  · rename_i b rest h
    exact .inl ⟨b, rest, h, rfl⟩
  · rename_i h
    exact .inr ⟨h, rfl⟩

/-- The arbiter's choice leaves everything alone but the count of free choices. -/
theorem arbitrate_state (s : State) :
    s.arbitrate.2 = s ∨ s.arbitrate.2 = { s with freeCount := s.freeCount + 1 } := by
  unfold State.arbitrate
  split
  · exact .inl rfl
  · exact .inl rfl
  · split
    · exact .inl rfl
    · exact .inr rfl

/-- A free port takes the request. -/
theorem postRequest_free {s : State} (hr : s.hostReq = none) (hw : s.hostWait = []) (q : HostReq) :
    s.postRequest q = { s with hostReq := some q } := by
  simp [State.postRequest, hr, hw]

/-- A port that holds a request makes the host wait (R42). -/
theorem postRequest_taken {s : State} {q' : HostReq} (hr : s.hostReq = some q') (q : HostReq) :
    s.postRequest q = { s with hostWait := s.hostWait ++ [q] } := by
  simp [State.postRequest, hr]

/-- The latch is set by an assertion only while the interrupt is enabled and no fault is set (R34). -/
theorem latchIrq_pend (s : State) :
    s.latchIrq.irqPend = true ↔ s.irqPend = true ∨ (s.irqEn = true ∧ s.fault = false) := by
  cases h1 : s.irqPend <;> cases h2 : s.irqEn <;> cases h3 : s.fault <;> simp [State.latchIrq, h1, h2, h3]

/-- A DISPATCH may start exactly when the latch is set and no fault is (R34, R35, log 9). -/
theorem dispatchPending_iff (s : State) : s.dispatchPending = true ↔ s.irqPend = true ∧ s.fault = false := by
  simp [State.dispatchPending]

/-- With a fault set the arbiter picks the request, if there is one, and nothing else. -/
theorem arbitrate_faulted {s : State} (h : s.fault = true) : s.arbitrate = (s.hostReq.isSome, s) := by
  cases hq : s.hostReq <;> simp [State.arbitrate, State.dispatchPending, hq, h]

/-! ## Where each kind of instruction starts -/

/-- The command instruction of a unit operation runs it. -/
theorem exec_command (op : UnitOp) (s : State) : exec op.instr s = execUnit op s := by
  rcases op with _ | _ | b | _ | b | _ | _ | _ <;> first | rfl | (cases b <;> rfl)

/-- A command on a free bus starts at T1. -/
theorem execUnit_start {s : State} (op : UnitOp) (hu : s.unit = none) (hc : s.call = none) :
    execUnit op s = runUnit (s.unitEnter op) := by
  simp [execUnit, hu, hc]

/-- A command whose unit operation is in flight goes on. -/
theorem execUnit_continue {s : State} (op : UnitOp) {u : TStep} (hu : s.unit = some (op, u)) :
    execUnit op s = runUnit s := by
  simp [execUnit, hu]

/-- A request at rest is taken and runs; otherwise it waits. -/
theorem execRequest_cases (i : Instr) (q : HostReq) (l : Label) (s : State) :
    (s.atRest = true ∧ execRequest i q l s = runOp ((s.takePort i).takeRequest l)) ∨
      (s.atRest = false ∧ execRequest i q l s = .next (s.waitRequest i q)) := by
  cases h : s.atRest
  · exact .inr ⟨rfl, by simp [execRequest, h]⟩
  · exact .inl ⟨rfl, by simp [execRequest, h]⟩

/-- A frame that stands at the head of the moves is the answer that is taken. -/
theorem receiveFrame_head {s : State} {f more : List Byte} {d : Nat} {rest : List Input}
    (h : s.inbox = .reply d (.received (f.length : Int) (f ++ more)) :: rest) :
    s.receiveFrame f =
      ({ s with inbox := rest } : State).takeAnswer (.busRecv f.length) d (.received (f.length : Int) f) := by
  have ht : s.takeFrame f = (d, { s with inbox := rest }) := by simp [State.takeFrame, h]
  simp [State.receiveFrame, ht]

end Sys2Proof.Machine
end

