-- ==== Sys2Proof/Laws/PerInstr.lean ====
section
/-! SUPPORT. The family FrameLength: every well-formed instruction encodes to a frame of the length that R80 gives its
kind, whatever the other parameters, when the literals are the defaults, and a request to a code of R92. One lemma for
each instruction. -/

namespace Sys2Proof.Laws

/-- The lengths of R80: 4 bytes towards the chip, 4 of a response, 4 of a hello, 25 of an interrupt frame. -/
def wireLengthOk : Wire → Bool
  | .sent f => f.length == 4
  | .reply f => f.length == 4
  | .hello f => f.length == 4
  | .irq f => f.length == 25
  | .request _ => true
  | .line => true

/-- The encoding of a well-formed instruction has its kind's length (R80). -/
def FrameLength.Statement (i : Instr) : Prop :=
  ∀ p : Params, p.lit = Config.lit → i.WellFormed = true → wireLengthOk (encode p i) = true

/-- Every frame of a unit operation has four bytes, wherever the parameters put the power bit and the packet state. -/
theorem frame_length (p : Params) (op : UnitOp) : (UnitOp.frame p op).length = 4 := by
  rcases op with _ | _ | b | _ | b | _ | _ | _ <;> try rfl
  · cases h : p.pwrWriteByte <;> simp [UnitOp.frame, h]
  · cases h : p.pktWriteByte <;> simp [UnitOp.frame, h]

theorem FrameLength.reqFwVer : FrameLength.Statement .reqFwVer :=
  fun p _ _ => by simp [encode, wireLengthOk, frame_length]

theorem FrameLength.reqPower : FrameLength.Statement .reqPower :=
  fun p _ _ => by simp [encode, wireLengthOk, frame_length]

theorem FrameLength.wrPowerOn : FrameLength.Statement .wrPowerOn :=
  fun p _ _ => by simp [encode, wireLengthOk, frame_length]

theorem FrameLength.wrPowerOff : FrameLength.Statement .wrPowerOff :=
  fun p _ _ => by simp [encode, wireLengthOk, frame_length]

theorem FrameLength.reqFinger : FrameLength.Statement .reqFinger :=
  fun p _ _ => by simp [encode, wireLengthOk, frame_length]

theorem FrameLength.wrPacketOn : FrameLength.Statement .wrPacketOn :=
  fun p _ _ => by simp [encode, wireLengthOk, frame_length]

theorem FrameLength.wrPacketOff : FrameLength.Statement .wrPacketOff :=
  fun p _ _ => by simp [encode, wireLengthOk, frame_length]

theorem FrameLength.reqPacket : FrameLength.Statement .reqPacket :=
  fun p _ _ => by simp [encode, wireLengthOk, frame_length]

theorem FrameLength.reqWidth : FrameLength.Statement .reqWidth :=
  fun p _ _ => by simp [encode, wireLengthOk, frame_length]

theorem FrameLength.reqHeight : FrameLength.Statement .reqHeight :=
  fun p _ _ => by simp [encode, wireLengthOk, frame_length]

theorem FrameLength.resp (r1 : Byte) (r2 : Byte) (r3 : Byte) : FrameLength.Statement (.resp r1 r2 r3) :=
  fun _ _ _ => rfl

theorem FrameLength.respBadMarker (m : Byte) (r1 : Byte) (r2 : Byte) (r3 : Byte) : FrameLength.Statement (.respBadMarker m r1 r2 r3) :=
  fun _ _ _ => rfl

theorem FrameLength.hello : FrameLength.Statement .hello :=
  fun p hp _ => by simp [encode, wireLengthOk, hp, Config.lit]

theorem FrameLength.helloMismatch (b0 : Byte) (b1 : Byte) (b2 : Byte) (b3 : Byte) : FrameLength.Statement (.helloMismatch b0 b1 b2 b3) :=
  fun _ _ _ => rfl

theorem FrameLength.irqReport (b1 : Byte) (rest : List Byte) : FrameLength.Statement (.irqReport b1 rest) :=
  fun p _ h => by
  simp [Instr.WellFormed, Instr.payloadOk, Config.lit] at h
  simp [encode, wireLengthOk, h]

theorem FrameLength.irqNoise (flag : Byte) (rest : List Byte) : FrameLength.Statement (.irqNoise flag rest) :=
  fun p _ h => by
  simp [Instr.WellFormed, Instr.payloadOk, Config.lit] at h
  simp [encode, wireLengthOk, h]

theorem FrameLength.irqCalib (rest : List Byte) : FrameLength.Statement (.irqCalib rest) :=
  fun p _ h => by
  simp [Instr.WellFormed, Instr.payloadOk, Config.lit] at h
  simp [encode, wireLengthOk, h]

theorem FrameLength.irqHello (rest : List Byte) : FrameLength.Statement (.irqHello rest) :=
  fun p _ h => by
  simp [Instr.WellFormed, Instr.payloadOk, Config.lit] at h
  simp [encode, wireLengthOk, h]

theorem FrameLength.irqOther (op : Byte) (rest : List Byte) : FrameLength.Statement (.irqOther op rest) :=
  fun p _ h => by
  simp [Instr.WellFormed, Instr.payloadOk, Config.lit] at h
  simp [encode, wireLengthOk, h]

theorem FrameLength.attach (cfg : Option CfgRecord) : FrameLength.Statement (.attach cfg) :=
  fun _ _ _ => rfl

theorem FrameLength.suspend : FrameLength.Statement .suspend :=
  fun _ _ _ => rfl

theorem FrameLength.resume : FrameLength.Statement .resume :=
  fun _ _ _ => rfl

theorem FrameLength.detach : FrameLength.Statement .detach :=
  fun _ _ _ => rfl

theorem FrameLength.fingerQuery : FrameLength.Statement .fingerQuery :=
  fun _ _ _ => rfl

theorem FrameLength.reserved5 : FrameLength.Statement .reserved5 :=
  fun _ _ _ => rfl

theorem FrameLength.reserved6 : FrameLength.Statement .reserved6 :=
  fun _ _ _ => rfl

theorem FrameLength.reserved7 : FrameLength.Statement .reserved7 :=
  fun _ _ _ => rfl

theorem FrameLength.irqLine : FrameLength.Statement .irqLine :=
  fun _ _ _ => rfl

end Sys2Proof.Laws
end

