-- ==== Sys2Proof/Tests/Slice0.lean ====
section
/-! SUPPORT. The model's own tests: what WellFormed refuses, the words of the encoding tables, one step of each
instruction on a small state with the result that spec/95_test_vectors.md gives it, and a witness for the hypotheses of
each statement. -/

namespace Sys2Proof.Tests

open Sys2Proof Sys2Proof.Machine Sys2Proof.Safety

/-! ## WellFormed refuses one ill-formed term for each check -/

theorem test_wf_report_length : (Instr.irqReport 0 (List.replicate 22 0)).WellFormed = false := by decide
theorem test_wf_noise_length : (Instr.irqNoise 0 (List.replicate 24 0)).WellFormed = false := by decide
theorem test_wf_calib_length : (Instr.irqCalib (List.replicate 23 0)).WellFormed = false := by decide
theorem test_wf_hello_length : (Instr.irqHello []).WellFormed = false := by decide
theorem test_wf_other_length : (Instr.irqOther 0x52 (List.replicate 25 0)).WellFormed = false := by decide
theorem test_wf_bad_marker : (Instr.respBadMarker 0x52 0 0 0).WellFormed = false := by decide
theorem test_wf_mismatch : (Instr.helloMismatch 0x55 0x55 0x55 0x55).WellFormed = false := by decide
theorem test_wf_other_report : (Instr.irqOther 0x5D (List.replicate 24 0)).WellFormed = false := by decide
theorem test_wf_other_noise : (Instr.irqOther 0x40 (List.replicate 24 0)).WellFormed = false := by decide
theorem test_wf_other_calib : (Instr.irqOther 0x66 (List.replicate 24 0)).WellFormed = false := by decide
theorem test_wf_other_hello : (Instr.irqOther 0x55 (List.replicate 24 0)).WellFormed = false := by decide

/-! ## Every constructor's word, written out from R84 to R92 -/

theorem test_decode_commands :
    decode {} (.sent [0x53, 0x00, 0x00, 0x00]) = .ok .reqFwVer
      ∧ decode {} (.sent [0x53, 0x50, 0x00, 0x00]) = .ok .reqPower
      ∧ decode {} (.sent [0x54, 0x50, 0x08, 0x00]) = .ok .wrPowerOn
      ∧ decode {} (.sent [0x54, 0x50, 0x00, 0x00]) = .ok .wrPowerOff
      ∧ decode {} (.sent [0x53, 0x51, 0x00, 0x00]) = .ok .reqFinger
      ∧ decode {} (.sent [0x54, 0x8E, 0x00, 0x00]) = .ok .wrPacketOn
      ∧ decode {} (.sent [0x54, 0x8E, 0x01, 0x00]) = .ok .wrPacketOff
      ∧ decode {} (.sent [0x53, 0x8E, 0x00, 0x00]) = .ok .reqPacket
      ∧ decode {} (.sent [0x53, 0x63, 0x00, 0x00]) = .ok .reqWidth
      ∧ decode {} (.sent [0x53, 0x60, 0x00, 0x00]) = .ok .reqHeight := by decide

theorem test_decode_replies :
    decode {} (.reply [0x52, 0x58, 0x01, 0xF0]) = .ok (.resp 0x58 0x01 0xF0)
      ∧ decode {} (.reply [0x53, 0x63, 0x00, 0x80]) = .ok (.respBadMarker 0x53 0x63 0x00 0x80)
      ∧ decode {} (.hello [0x55, 0x55, 0x55, 0x55]) = .ok .hello
      ∧ decode {} (.hello [0x55, 0x55, 0x55, 0x54]) = .ok (.helloMismatch 0x55 0x55 0x55 0x54) := by decide

/-- Bytes 0 and 1 of a report, then slot 0 with the source's example bytes (V-SRC-1). -/
def reportTail : List Byte := [0x12, 0x34, 0x56] ++ List.replicate 20 0x00

theorem test_decode_interrupts :
    decode {} (.irq (0x5D :: 0x01 :: reportTail)) = .ok (.irqReport 0x01 reportTail)
      ∧ decode {} (.irq (0x40 :: 0x41 :: List.replicate 23 0)) = .ok (.irqNoise 0x41 (List.replicate 23 0))
      ∧ decode {} (.irq (0x66 :: List.replicate 24 0x07)) = .ok (.irqCalib (List.replicate 24 0x07))
      ∧ decode {} (.irq (0x55 :: List.replicate 24 0x55)) = .ok (.irqHello (List.replicate 24 0x55))
      ∧ decode {} (.irq (0x52 :: List.replicate 24 0)) = .ok (.irqOther 0x52 (List.replicate 24 0)) := by decide

theorem test_decode_requests :
    decode {} (.request ⟨0, some CfgRecord.zero⟩) = .ok (.attach (some CfgRecord.zero))
      ∧ decode {} (.request ⟨1, none⟩) = .ok .suspend ∧ decode {} (.request ⟨2, none⟩) = .ok .resume
      ∧ decode {} (.request ⟨3, none⟩) = .ok .detach ∧ decode {} (.request ⟨4, none⟩) = .ok .fingerQuery
      ∧ decode {} (.request ⟨5, none⟩) = .ok .reserved5 ∧ decode {} (.request ⟨6, none⟩) = .ok .reserved6
      ∧ decode {} (.request ⟨7, none⟩) = .ok .reserved7 ∧ decode {} .line = .ok .irqLine := by decide

/-- R94: frames that are none of the ten are rejected by name; so are frames of another length. -/
theorem test_decode_rejects :
    decode {} (.sent [0x54, 0x50, 0x0C, 0x00]) = .error .notSentByTcmt
      ∧ decode {} (.sent [0x54, 0x63, 0x00, 0x00]) = .error .notSentByTcmt
      ∧ decode {} (.reply [0x52, 0x00, 0x00]) = .error .wrongLength
      ∧ decode {} (.irq (List.replicate 24 0x40)) = .error .wrongLength := by decide

theorem test_table_words :
    decodeTableWord 32 0x53000000 = some .reqFwVer ∧ decodeTableWord 32 0x548E0100 = some .wrPacketOff
      ∧ decodeTableWord 32 0x52000000 = some (.resp 0 0 0) ∧ decodeTableWord 32 0x55555555 = some .hello
      ∧ decodeTableWord 32 0 = some (.respBadMarker 0 0 0 0)
      ∧ decodeTableWord 8 0x5D = some (.irqReport 0 (List.replicate 23 0)) ∧ decodeTableWord 8 4 = some .fingerQuery
      ∧ decodeTableWord 8 0xFF = some (.irqOther 0xFF (List.replicate 24 0))
      ∧ decodeTableWord 1 1 = some .irqLine := by decide

theorem test_placed_words_are_fetched :
    (State.reset.withFetchWord 32 0x54500800).fetch = tableWire 32 0x54500800
      ∧ (State.reset.withFetchWord 32 0x52000000).fetch = tableWire 32 0x52000000
      ∧ (State.reset.withFetchWord 32 0x55555555).fetch = tableWire 32 0x55555555
      ∧ (State.reset.withFetchWord 8 0x66).fetch = tableWire 8 0x66
      ∧ (State.reset.withFetchWord 8 0).fetch = tableWire 8 0
      ∧ (State.reset.withFetchWord 1 1).fetch = tableWire 1 1 := by decide

/-! ## Small states -/

/-- The step answers a next state of which `p` holds. -/
def ends (o : Host.Outcome State Fault Refusal) (p : State → Bool) : Bool :=
  match o with
  | .next t => p t
  | _ => false

/-- CFG0 of 95_test_vectors.md, in a Ready session. -/
def session : Session :=
  { fwVersion := some 496, width := some 2048, height := some 1024, cfgSmx := some 800, cfgSmy := some 480
    cfgRx := some false, cfgRy := some false, cfgXy := some false, cfgIrqMode := some 1 }

/-- Ready-2048 of 95_test_vectors.md, with these moves to come. -/
def ready (moves : List Input) : State :=
  { State.reset with
    life := .ready, ses := session, irqEn := true, lastResult := .ok, inbox := moves
    res := { pins := true, irqCfg := true, bus := true, host := true, pinRst := some 1, pinInt := some 2 } }

/-- Suspended, with these moves to come. -/
def asleep (moves : List Input) : State := { ready moves with life := .suspended, irqEn := false }

/-- Cold, with these moves to come. -/
def cold (moves : List Input) : State := { State.reset with inbox := moves }

/-- A good send, the settle wait, and these bytes received. -/
def answers (b : List Byte) : List Input := [.reply 0 (.sent 4), .reply 0 .done, .reply 0 (.received 4 b)]

/-- A read waits for its response at T3. -/
def awaiting (op : UnitOp) (b : List Byte) : State :=
  { ready [.reply 0 (.received 4 b)] with unit := some (op, .t3), call := some (.busRecv 4) }

/-- ATTACH waits for the hello at A9. -/
def atHello (b : List Byte) : State :=
  { cold [.reply 0 (.received 4 b)] with step := some .a9, call := some (.busRecv 4), life := .awaitHello }

/-- A DISPATCH waits for this frame at I4; then these moves. -/
def atFrame (f : List Byte) (moves : List Input) : State :=
  { ready (.reply 0 (.received 25 f) :: moves) with step := some .i4, call := some (.busRecv 25) }

/-- CFG0 as the record of ATTACH. -/
def cfg0 : CfgRecord :=
  { smx := some 800, smy := some 480, rx := some false, ry := some false, xy := some false, irqMode := some 1 }

/-- CFG0 in register widths. -/
def valid0 : ValidCfg :=
  { smx := 800, smy := 480, rx := false, ry := false, xy := false, irqMode := 1, sensor := none }

/-- The answers to P1's ATTACH, with this hello. -/
def attachMoves (hello : List Byte) : List Input :=
  List.flatten
    [[.reply 0 (.pin (some 1)), .reply 0 (.pin (some 2)), .reply 0 .done, .reply 0 (.opened true), .reply 0 .done,
      .reply 0 .done, .reply 0 (.received 4 hello)],
     answers [0x52, 0x00, 0x01, 0xF0], [.reply 0 .done], answers [0x52, 0x63, 0x00, 0x80], [.reply 0 .done],
     answers [0x52, 0x60, 0x00, 0x40], [.reply 0 (.registered true)]]

/-! ## One step of each instruction (the vector that gives the result stands in the comment) -/

-- V-CAT-1
theorem test_req_fw_ver :
    ends (exec .reqFwVer (ready (answers [0x52, 0x00, 0xAB, 0xCD])))
      (fun t => t.ur == some (.ok (.fw 0xABC0)) && t.clock == 10) = true := by decide

-- V-TR-8: no wait and no receive after a bad send
theorem test_req_fw_ver_send_fails :
    ends (exec .reqFwVer (ready [.reply 0 (.sent 2)]))
      (fun t => t.ur == some (.err (.transportSend 4 2))
        && t.trace == [.call (.busSend [0x53, 0x00, 0x00, 0x00]) (.sent 2)]) = true := by decide

-- V-CAT-6, V-CAT-7
theorem test_req_power :
    ends (exec .reqPower (ready (answers [0x52, 0x58, 0x00, 0x00]))) (fun t => t.ur == some (.ok (.flag true))) = true
      ∧ ends (exec .reqPower (ready (answers [0x52, 0xF7, 0xFF, 0xFF])))
        (fun t => t.ur == some (.ok (.flag false))) = true := by decide

-- V-CAT-4
theorem test_wr_power_on :
    ends (exec .wrPowerOn (ready [.reply 0 (.sent 4)]))
      (fun t => t.ur == some (.ok .unit) && t.trace == [.call (.busSend [0x54, 0x50, 0x08, 0x00]) (.sent 4)])
      = true := by decide

-- V-CAT-24
theorem test_wr_power_on_expects_response :
    ends (exec .wrPowerOn { ready (answers [0, 0, 0, 0]) with par := { writeExpectsResponse := true } })
      (fun t => t.ur == some (.err (.protocol 0))) = true := by decide

-- V-CAT-5
theorem test_wr_power_off :
    ends (exec .wrPowerOff (ready [.reply 0 (.sent 4)]))
      (fun t => t.trace == [.call (.busSend [0x54, 0x50, 0x00, 0x00]) (.sent 4)]) = true := by decide

-- V-CAT-10, V-CAT-11
theorem test_req_finger :
    ends (exec .reqFinger (ready (answers [0x52, 0x51, 0x80, 0x00]))) (fun t => t.ur == some (.ok (.flag true))) = true
      ∧ ends (exec .reqFinger (ready (answers [0x52, 0xFF, 0x00, 0xFF])))
        (fun t => t.ur == some (.ok (.flag false))) = true := by decide

-- V-CAT-12
theorem test_wr_packet_on :
    ends (exec .wrPacketOn (ready [.reply 0 (.sent 4)]))
      (fun t => t.trace == [.call (.busSend [0x54, 0x8E, 0x00, 0x00]) (.sent 4)]) = true := by decide

-- V-CAT-13
theorem test_wr_packet_off :
    ends (exec .wrPacketOff (ready [.reply 0 (.sent 4)]))
      (fun t => t.trace == [.call (.busSend [0x54, 0x8E, 0x01, 0x00]) (.sent 4)]) = true := by decide

-- V-CAT-15, V-CAT-16
theorem test_req_packet :
    ends (exec .reqPacket (ready (answers [0x52, 0x8E, 0x01, 0x00]))) (fun t => t.ur == some (.ok (.stream .off))) = true
      ∧ ends (exec .reqPacket (ready (answers [0x52, 0x8E, 0x02, 0x00])))
        (fun t => t.ur == some (.ok (.stream (.unrecognised 2)))) = true := by decide

-- V-CAT-19
theorem test_req_width :
    ends (exec .reqWidth (ready (answers [0x52, 0x63, 0x34, 0x1F]))) (fun t => t.ur == some (.ok (.dim 308))) = true := by
  decide

-- V-CAT-22
theorem test_req_height :
    ends (exec .reqHeight (ready (answers [0x52, 0x60, 0xE0, 0x20]))) (fun t => t.ur == some (.ok (.dim 736))) = true := by
  decide

-- V-TR-11: only byte 0 is checked
theorem test_resp :
    ends (exec (.resp 0x60 0x00 0x80) (awaiting .widthRead [0x52, 0x60, 0x00, 0x80]))
      (fun t => t.ur == some (.ok (.dim 2048)) && t.rx == some [0x52, 0x60, 0x00, 0x80]) = true := by decide

-- V-TR-9
theorem test_resp_bad_marker :
    ends (exec (.respBadMarker 0x53 0x00 0x01 0xF0) (awaiting .fwVerRead [0x53, 0x00, 0x01, 0xF0]))
      (fun t => t.ur == some (.err (.protocol 0x53)) && t.rx == some [0x53, 0x00, 0x01, 0xF0]) = true := by decide

-- R203: good bytes give no diagnostic
theorem test_hello :
    ends (exec .hello (atHello [0x55, 0x55, 0x55, 0x55]))
      (fun t => t.step == some .a10
        && t.trace == [.call (.busRecv 4) (.received 4 [0x55, 0x55, 0x55, 0x55])]) = true := by decide

-- V-SRC-3
theorem test_hello_mismatch :
    ends (exec (.helloMismatch 0x55 0x55 0x55 0x54) (atHello [0x55, 0x55, 0x55, 0x54]))
      (fun t => t.step == some .a10
        && t.trace.getLast? == some (.diag ⟨.helloMismatch, .attach, some .a9, .bytes [0x55, 0x55, 0x55, 0x54]⟩))
      = true := by decide

-- R166's example
theorem test_irq_report :
    ends (exec (.irqReport 0x01 reportTail)
        (atFrame (0x5D :: 0x01 :: reportTail) [.reply 0 .done, .reply 0 .done, .reply 0 .done]))
      (fun t => t.trace.tail == [.call (.hostEvent (.position 233 144)) .done, .call (.hostEvent (.touch true)) .done,
          .call (.hostEvent .sync) .done] && t.lastResult == .ok) = true := by decide

-- V-DSP-9
theorem test_irq_report_zero_width :
    ends (exec (.irqReport 0x01 reportTail)
        { atFrame (0x5D :: 0x01 :: reportTail) [] with ses := { session with width := some 0 } })
      (fun t => t.fault && t.faultCause.code == 1 && t.lastResult.code == 7
        && t.trace.tail == [.diag ⟨.fault, .dispatch, some .i6, .cause .normalizerDivZero⟩]) = true := by decide

-- V-DSP-4, V-DSP-6
theorem test_irq_noise :
    ends (exec (.irqNoise 0x41 (List.replicate 23 0)) (atFrame (0x40 :: 0x41 :: List.replicate 23 0) []))
        (fun t => t.trace.tail == [.diag ⟨.noise, .dispatch, some .i7, .noise true 0x41⟩]) = true
      ∧ ends (exec (.irqNoise 0x49 (List.replicate 23 0)) (atFrame (0x40 :: 0x49 :: List.replicate 23 0) []))
        (fun t => t.trace.tail == [.diag ⟨.noise, .dispatch, some .i7, .noise false 0x49⟩]) = true := by decide

-- V-DSP-7
theorem test_irq_calib :
    ends (exec (.irqCalib (List.replicate 24 0)) (atFrame (0x66 :: List.replicate 24 0) []))
      (fun t => t.trace.tail == [.diag ⟨.calib, .dispatch, some .i8, .nothing⟩] && t.step == none) = true := by decide

-- V-DSP-8
theorem test_irq_hello :
    ends (exec (.irqHello (List.replicate 24 0)) (atFrame (0x55 :: List.replicate 24 0) []))
      (fun t => t.trace.tail == [.diag ⟨.unsolicitedHello, .dispatch, some .i9, .nothing⟩]) = true := by decide

-- V-DSP-3
theorem test_irq_other :
    ends (exec (.irqOther 0x52 (List.replicate 24 0)) (atFrame (0x52 :: List.replicate 24 0) []))
      (fun t => t.trace.length == 1 && t.lastResult == .ok && t.step == none) = true := by decide

-- P1's ATTACH and V-TIM-1
theorem test_attach :
    ends (exec (.attach (some cfg0)) (cold (attachMoves [0x55, 0x55, 0x55, 0x55])))
      (fun t => t.ses == session && t.portValue 0 0 == 0x000C && t.portValue 1 0 == 0x00FF && t.clock == 80)
      = true := by decide

-- V-LC-5: the bus does not open
theorem test_attach_aborts :
    ends (exec (.attach (some cfg0)) (cold [.reply 0 (.pin (some 1)), .reply 0 (.pin (some 2)), .reply 0 .done,
        .reply 0 (.opened false), .reply 0 .done, .reply 0 .done, .reply 0 .done]))
      (fun t => t.life == .detached && t.trace.drop 4 == [.diag ⟨.initFail, .attach, some .b1, .abort .a6 .bus⟩,
        .call .releaseInterrupt .done, .call (.releasePin 2) .done, .call (.releasePin 1) .done, .respond .init none])
      = true := by decide

-- V-LC-10
theorem test_suspend :
    ends (exec .suspend (ready [.reply 0 (.sent 0), .reply 0 .done, .reply 0 (.sent 0)]))
      (fun t => t.life == .suspended && t.ses.streamingOn == none && t.ses.powerOn == none && t.irqEn == false
        && t.trace.length == 6) = true := by decide

-- V-LC-12 and V-TIM-2
theorem test_resume :
    ends (exec .resume (asleep ([.reply 0 (.sent 4), .reply 0 .done] ++ answers [0x52, 0x08, 0x00, 0x00]
        ++ [.reply 0 (.sent 4), .reply 0 .done] ++ answers [0x52, 0x8E, 0x02, 0x00])))
      (fun t => t.life == .ready && t.portValue 5 0 == 0x000F && t.portValue 6 0 == 0x020F && t.clock == 40)
      = true := by decide

-- P4's first DETACH
theorem test_detach :
    ends (exec .detach (ready [.reply 0 .done, .reply 0 .done, .reply 0 .done, .reply 0 .done, .reply 0 .done]))
      (fun t => t.portValue 0 0 == 0x0006 && t.trace == [.call .busClose .done, .call .releaseInterrupt .done,
        .call .hostUnregister .done, .call (.releasePin 2) .done, .call (.releasePin 1) .done, .respond .ok none])
      = true := by decide

-- P4 and V-LC-15
theorem test_finger_query :
    ends (exec .fingerQuery (ready (answers [0x52, 0x51, 0x01, 0x00])))
        (fun t => t.trace.getLast? == some (.respond .ok (some true))) = true
      ∧ ends (exec .fingerQuery (ready [.reply 0 (.sent 4), .reply 0 .done, .reply 0 (.received 2 [])]))
        (fun t => t.trace.getLast? == some (.respond .transportRecv none) && t.lastResult.code == 2) = true := by decide

-- R200
theorem test_reserved :
    ends (exec .reserved5 (ready [])) (fun t => t.trace == [.respond .badRequest none]) = true
      ∧ ends (exec .reserved6 (asleep [])) (fun t => t.lastResult.code == 8) = true
      ∧ ends (exec .reserved7 (cold [])) (fun t => t.trace == [.respond .badRequest none]) = true := by decide

-- V-DSP-1
theorem test_irq_line :
    ends (exec .irqLine (ready [.irq, .reply 0 (.acked false)]))
      (fun t => t.trace == [.call .readAndAck (.acked false), .diag ⟨.irqNotPending, .dispatch, some .i3, .nothing⟩]
        && t.irqPend == false) = true := by decide

-- V-DSP-11
theorem test_irq_line_masked :
    ends (step (asleep [.irq])) (fun t => t == asleep []) = true := by decide

-- V-RST-2, V-RST-1
theorem test_block_reset :
    ends (step (ready [.rst])) (fun t => t.portValue 0 0xFFFF == 0x0F00 && t.portValue 1 0xFFFF == 0 && t.trace == [])
      = true := by decide

-- R282, D38: a maximum that is present is in range, required or not
theorem test_valid_queried_range :
    validate {} (some { cfg0 with snx := some 70000 }) = none ∧ validate {} (some { cfg0 with sny := some (-1) }) = none
      ∧ validate {} (some { cfg0 with snx := some 65535 }) = some valid0 := by decide

-- R260, V-EXC-1
theorem test_kind_codes :
    (Err.transportSend 4 0).kind.code = 1 ∧ (Err.transportRecv 4 0).kind.code = 2 ∧ (Err.protocol 0).kind.code = 3
      ∧ DiagCode.configFail.failureClass.map FailureClass.code = some 4
      ∧ DiagCode.initFail.failureClass.map FailureClass.code = some 5
      ∧ DiagCode.helloMismatch.failureClass.map FailureClass.code = some 6
      ∧ DiagCode.fault.failureClass.map FailureClass.code = some 7
      ∧ ResultCode.badRequest.failureClass.map FailureClass.code = some 8 := by decide

-- R21: E1 to E3 for three events, and none once the last is answered
theorem test_sub_of_events :
    ends (exec (.irqReport 0x01 reportTail) (atFrame (0x5D :: 0x01 :: reportTail) [.reply 0 .done, .reply 0 .done]))
        (fun t => t.sub == some (.e 3)) = true
      ∧ ends (exec (.irqReport 0x01 reportTail)
          (atFrame (0x5D :: 0x01 :: reportTail) [.reply 0 .done, .reply 0 .done, .reply 0 .done]))
        (fun t => t.sub == none && t.step == none) = true := by decide

-- R224, R240: a latched assertion starts no DISPATCH while FAULT is set
theorem test_fault_starts_no_dispatch :
    ends (step { ready [] with irqPend := true, fault := true, faultCause := .normalizerDivZero })
      (fun t => t.step == none && t.irqPend) = true := by decide

/-- An instance whose chip marks its responses with 0x60, opens NOISE frames with 0x41, and whose screen has 8 bits. -/
def other : Params := { lit := { mkResponse := 0x60, opNoise := 0x41, screenW := 8 } }

-- R10, M21: the literals are parameters of the instance
theorem test_other_literals :
    ends (exec .reqFwVer { ready (answers [0x52, 0, 0xAB, 0xCD]) with par := other })
        (fun t => t.ur == some (.err (.protocol 0x52))) = true
      ∧ decode other (.reply [0x60, 0, 0, 0]) = .ok (.resp 0 0 0)
      ∧ decode other (.irq (0x41 :: List.replicate 24 0)) = .ok (.irqNoise 0 (List.replicate 23 0))
      ∧ validate other (some cfg0) = none
      ∧ (validate other (some { cfg0 with smx := some 255, smy := some 0 })).isSome = true := by decide

-- R44, RN 11 to 13: one present point (598, 308) in slot 0, and no coordinates in slot 1
theorem test_port_report :
    let s : State := { ready [] with lastReport := some (decodeReport {} (0x5D :: 0x01 :: reportTail)) }
    s.portValue 11 0xFFFF = 0x0009 ∧ s.portValue 12 0xFFFF = 598 ∧ s.portValue 13 0xFFFF = 308
      ∧ s.portValue 14 0xF123 = 0x0123 := by decide

/-! ## Witnesses: concrete values that meet the hypotheses of each statement -/

theorem settled_nil : Settled [] := fun _ h => (by cases h)
theorem noneMoves_nil : NoneMoves [] := fun _ h => (by cases h)
theorem noneMoves_turn : NoneMoves [.turn false] := fun _ h => (by cases h; rfl)

/-- The bus is free for a command at a state at rest. -/
theorem busFree_rest (i : Instr) (moves : List Input) : BusFree i (ready moves) := ⟨rfl, fun _ _ h => (by cases h)⟩

theorem witness_decode_encode :
    ({} : Params).lit = Config.lit ∧ (Instr.irqOther 0x00 (List.replicate 24 0)).WellFormed = true
      ∧ ((0xF7 : Byte) &&& 0x08 = 0) := by decide

theorem witness_encode_decode :
    ({} : Params).lit = Config.lit ∧ decode {} (.request ⟨0, some cfg0⟩) = .ok (.attach (some cfg0))
      ∧ decode {} (.request ⟨1, none⟩) = .ok .suspend
      ∧ (∀ q, Wire.request ⟨1, none⟩ = .request q → q.code ≠ 0 → q.arg = none) :=
  ⟨rfl, rfl, rfl, fun q h _ => (by cases h; rfl)⟩

/-- A SUSPEND about to send its first frame. -/
def sending : State := { asleep [] with step := some .s2, unit := some (.packetWrite false, .t1) }

theorem witness_only_table_frames :
    sending.par = {} ∧ SendsOnly tenFrames sending
      ∧ ends (step sending) (fun t => t.call == some (.busSend [0x54, 0x8E, 0x01, 0x00])) = true :=
  ⟨rfl, ⟨fun _ h => (by cases h), fun _ _ h => (by cases h)⟩, by decide⟩

/-- The three clauses of `Transacts` for any command, with the counts beside the right one: a bad send, a bad receive,
a response that a turn follows. -/
theorem witness_transacts (i : Instr) :
    (BusFree i (ready [.reply 0 (.sent 3)]) ∧ (ready [.reply 0 (.sent 3)]).par.lit = Config.lit ∧ (3 : Int) ≠ 4 ∧ (5 : Int) ≠ 4
        ∧ (ready [.reply 0 (.sent 3)]).inbox = [.reply 0 (.sent 3)])
      ∧ (BusFree i (ready [.reply 0 (.sent 4), .reply 0 .done, .reply 0 (.received 5 [])]) ∧ (ready []).par.lit = Config.lit
        ∧ (ready [.reply 0 (.sent 4), .reply 0 .done, .reply 0 (.received 5 [])]).inbox
          = [.reply 0 (.sent 4), .reply 0 .done, .reply 0 (.received 5 [])])
      ∧ (BusFree i (ready (answers [0x52, 0, 0, 0] ++ [.turn false])) ∧ (ready []).par.lit = Config.lit ∧ NoneMoves [.turn false]
        ∧ (ready (answers [0x52, 0, 0, 0] ++ [.turn false])).inbox
          = [.reply 0 (.sent 4), .reply 0 .done, .reply 0 (.received 4 [0x52, 0, 0, 0]), .turn false]) :=
  ⟨⟨busFree_rest _ _, rfl, by decide, by decide, rfl⟩, ⟨busFree_rest _ _, rfl, rfl⟩,
    ⟨busFree_rest _ _, rfl, noneMoves_turn, rfl⟩⟩

/-- The command of the unit operation that stands at T1 may start too. -/
theorem witness_transacts_at_t1 :
    BusFree .reqWidth { ready (answers [0x51, 0, 0, 0]) with unit := some (.widthRead, .t1) } :=
  ⟨rfl, fun _ _ h => (by cases h; exact ⟨rfl, rfl⟩)⟩

/-- The settings of WRITE_EXPECTS_RESPONSE that the clauses of `Writes` ask for. -/
theorem witness_writes (i : Instr) :
    (BusFree i (ready [.reply 0 (.sent 4)]) ∧ (ready [.reply 0 (.sent 4)]).par.lit = Config.lit
        ∧ (ready [.reply 0 (.sent 4)]).par.writeExpectsResponse = false
        ∧ (ready [.reply 0 (.sent 4)]).inbox = [.reply 0 (.sent 4)])
      ∧ (let s : State := { ready (answers [0x51, 0, 0, 0]) with par := { writeExpectsResponse := true } }
         BusFree i s ∧ s.par.lit = Config.lit ∧ s.par.writeExpectsResponse = true ∧ NoneMoves []
          ∧ s.inbox = [.reply 0 (.sent 4), .reply 0 .done, .reply 0 (.received 4 [0x51, 0, 0, 0])]) :=
  ⟨⟨busFree_rest _ _, rfl, rfl, rfl⟩, ⟨rfl, fun _ _ h => (by cases h)⟩, rfl, rfl, noneMoves_nil, rfl⟩

theorem witness_catalog_frame :
    ends (exec (UnitOp.instr .widthRead) (ready (answers [0x51, 0, 0, 0]))) (fun t => t.rx == some [0x51, 0, 0, 0])
      = true := by decide

theorem witness_response_received :
    (awaiting .powerRead [0x52, 0, 0, 0]).par.lit = Config.lit
      ∧ (awaiting .powerRead [0x52, 0, 0, 0]).call = some (.busRecv 4)
      ∧ (awaiting .powerRead [0x52, 0, 0, 0]).unit = some (.powerRead, .t3)
      ∧ (awaiting .powerRead [0x53, 0, 0, 0]).inbox = [.reply 0 (.received 4 [0x53, 0, 0, 0])] ∧ NoneMoves [] :=
  ⟨rfl, rfl, rfl, rfl, noneMoves_nil⟩

theorem witness_out_of_turn :
    ((atHello [0, 0, 0, 0]).call.isSome ∧ (atHello [0, 0, 0, 0]).unit = none)
      ∧ ((awaiting .powerRead []).unit = some (.powerRead, .t3)
        ∧ UnitOp.frame (awaiting .powerRead []).par .powerRead ≠ UnitOp.frame (awaiting .powerRead []).par .fingerRead)
      ∧ (atHello [0, 0, 0, 0]).awaitsResponse = false ∧ (ready []).awaitsHello = false
      ∧ (ready []).awaitsIrqFrame = false := by decide

theorem witness_hello_received :
    (atHello []).par.lit = Config.lit
      ∧ Answering (atHello [0x55, 0x55, 0x55, 0x55]) .a9 (.busRecv 4) 0 (.received 4 [0x55, 0x55, 0x55, 0x55]) []
      ∧ Answering (atHello [0x54, 0x55, 0x55, 0x55]) .a9 (.busRecv 4) 0 (.received 4 [0x54, 0x55, 0x55, 0x55]) [] :=
  ⟨rfl, ⟨rfl, rfl, rfl, rfl⟩, ⟨rfl, rfl, rfl, rfl⟩⟩

theorem witness_noise_dispatched :
    (Instr.irqNoise 0x41 (List.replicate 23 0)).WellFormed = true ∧ Settled [] ∧ (atFrame [] []).par.lit = Config.lit
      ∧ Answering (atFrame (0x40 :: 0x41 :: List.replicate 23 0) []) .i4 (.busRecv 25) 0
        (.received 25 (0x40 :: 0x41 :: List.replicate 23 0 ++ [])) [] :=
  ⟨by decide, settled_nil, rfl, ⟨rfl, rfl, rfl, rfl⟩⟩

theorem witness_calib_dispatched :
    (Instr.irqCalib (List.replicate 24 0)).WellFormed = true ∧ Settled [] ∧ (atFrame [] []).par.lit = Config.lit
      ∧ Answering (atFrame (0x66 :: List.replicate 24 0) []) .i4 (.busRecv 25) 0
        (.received 25 (0x66 :: List.replicate 24 0 ++ [])) [] :=
  ⟨by decide, settled_nil, rfl, ⟨rfl, rfl, rfl, rfl⟩⟩

theorem witness_unsolicited_hello_dispatched :
    (Instr.irqHello (List.replicate 24 0)).WellFormed = true ∧ Settled [] ∧ (atFrame [] []).par.lit = Config.lit
      ∧ Answering (atFrame (0x55 :: List.replicate 24 0) []) .i4 (.busRecv 25) 0
        (.received 25 (0x55 :: List.replicate 24 0 ++ [])) [] :=
  ⟨by decide, settled_nil, rfl, ⟨rfl, rfl, rfl, rfl⟩⟩

theorem witness_unknown_opcode :
    (Instr.irqOther 0x56 (List.replicate 24 0)).WellFormed = true ∧ Settled [] ∧ (atFrame [] []).par.lit = Config.lit
      ∧ Answering (atFrame (0x56 :: List.replicate 24 0) []) .i4 (.busRecv 25) 0
        (.received 25 (0x56 :: List.replicate 24 0 ++ [])) [] :=
  ⟨by decide, settled_nil, rfl, ⟨rfl, rfl, rfl, rfl⟩⟩

/-- A report with one point and three answers, and a report with a finger count of 0 and two. -/
theorem witness_report_dispatched :
    ScreenSetup (ready []) 800 480 false false false ∧ SensorMax (ready []) 2048 1024 ∧ Settled []
      ∧ (ready []).par.lit = Config.lit
      ∧ (Instr.irqReport 0x01 reportTail).WellFormed = true
      ∧ presentPoints (decodeReport {} (0x5D :: 0x01 :: reportTail)) = [(598, 308)]
      ∧ [0, 0, 0].length = (hostEvents true 1 ([(598, 308)].map
          (screenPoint 800 480 2048 1024 false false false))).length
      ∧ Answering (atFrame (0x5D :: 0x01 :: reportTail) [.reply 0 .done, .reply 0 .done, .reply 0 .done]) .i4
        (.busRecv 25) 0 (.received 25 (0x5D :: 0x01 :: reportTail ++ []))
        ([0, 0, 0].map (fun e => .reply e .done) ++ [])
      ∧ presentPoints (decodeReport {} (0x5D :: 0x08 :: reportTail)) = []
      ∧ [0, 0].length = (hostEvents true 0 []).length :=
  ⟨by decide, And.intro rfl rfl, settled_nil, rfl, by decide, by decide, by decide, ⟨rfl, rfl, rfl, rfl⟩, by decide,
    by decide⟩

/-- A Ready session whose chip reported no width. -/
def flat (f : List Byte) : State := { atFrame f [] with ses := { session with width := some 0 } }

theorem witness_report_faults :
    SensorMax (flat (0x5D :: 0x01 :: reportTail)) 0 1024 ∧ ((0 : Nat) = 0 ∨ (1024 : Nat) = 0)
      ∧ (Instr.irqReport 0x01 reportTail).WellFormed = true ∧ Settled [] ∧ (flat []).par.lit = Config.lit
      ∧ presentPoints (decodeReport {} (0x5D :: 0x01 :: reportTail)) ≠ []
      ∧ Answering (flat (0x5D :: 0x01 :: reportTail)) .i4 (.busRecv 25) 0
        (.received 25 (0x5D :: 0x01 :: reportTail ++ [])) [] :=
  ⟨And.intro rfl rfl, by decide, by decide, settled_nil, rfl, by decide, ⟨rfl, rfl, rfl, rfl⟩⟩

theorem witness_assertion_latch :
    ({ ready [.irq] with irqPend := true, fault := true } : State).fault = true ∧ ((asleep [.irq]).inbox = [.irq] ∧ (asleep [.irq]).irqPend = false ∧ (asleep [.irq]).irqEn = false)
      ∧ ((atHello []).atRest = false ∧ (ready [.irq]).irqEn = true ∧ (ready [.irq]).fault = false)
      ∧ ({ ready [.irq] with hostReq := some ⟨4, none⟩ } : State).hostReq.isSome = true := by decide

/-- The three clauses: not acknowledged, a receive one byte short, an unknown opcode. -/
theorem witness_assertion_dispatched :
    let s := ready [.irq, .reply 0 (.acked false)]
    let u := ready [.irq, .reply 0 (.acked true), .reply 0 (.received 24 [])]
    let v := ready [.irq, .reply 0 (.acked true), .reply 0 (.received 25 (0x41 :: List.replicate 24 0))]
    s.par.lit = Config.lit ∧ u.par.lit = Config.lit ∧ v.par.lit = Config.lit
      ∧ (s.atRest = true ∧ s.hostReq = none ∧ s.irqEn = true ∧ s.fault = false ∧ s.par.ackGatesReceive = true ∧ Settled [])
      ∧ (u.atRest = true ∧ u.hostReq = none ∧ u.irqEn = true ∧ u.fault = false ∧ (24 : Int) ≠ 25)
      ∧ (v.atRest = true ∧ v.hostReq = none ∧ v.irqEn = true ∧ v.fault = false
        ∧ (Instr.irqOther 0x41 (List.replicate 24 0)).WellFormed = true) :=
  ⟨rfl, rfl, rfl, ⟨rfl, rfl, rfl, rfl, rfl, settled_nil⟩, ⟨rfl, rfl, rfl, rfl, by decide⟩, ⟨rfl, rfl, rfl, rfl, by decide⟩⟩

theorem witness_dispatch_writes :
    (flat (0x5D :: 0x01 :: reportTail)).step = some .i4 ∧ Label.i4.name.op = .dispatch
      ∧ (flat []).unit = none ∧ tick (atFrame [] []) = .moved { ready [] with step := some .i4, call := some (.busRecv 25) } :=
  ⟨rfl, rfl, rfl, rfl⟩

theorem witness_arbiter_takes_request :
    (({ ready [] with hostReq := some ⟨1, none⟩ } : State).hostReq.map decodeRequest = some .suspend)
      ∧ (ready []).hostReq.map decodeRequest ≠ some .suspend := by decide

theorem witness_requests_at_rest :
    (ready []).atRest = true ∧ (atHello []).atRest = false ∧ (atHello []).hostReq = none ∧ (atHello []).hostWait = []
      ∧ decodeRequest ⟨1, none⟩ = .suspend
      ∧ (let full : State := { atHello [] with hostReq := some ⟨2, none⟩ }
         full.atRest = false ∧ full.hostReq.map decodeRequest ≠ some (decodeRequest ⟨1, none⟩)
          ∧ full.hostReq.map decodeRequest = some (decodeRequest ⟨2, none⟩) ∧ full.hostReq ≠ none) := by decide

theorem witness_rejected_requests :
    (legalIn .suspend ≠ [] ∧ (asleep []).atRest = true ∧ (asleep []).life ∉ legalIn .suspend)
      ∧ (legalIn .fingerQuery ≠ [] ∧ ({ ready [] with fault := true } : State).fault = true)
      ∧ Settled ((asleep []).takePort .suspend).inbox :=
  ⟨by decide, by decide, settled_nil⟩

theorem witness_attach_invalid :
    (cold []).atRest = true ∧ (cold []).life = .cold ∧ (cold []).fault = false ∧ validate {} none = none
      ∧ validate {} (some { cfg0 with smx := some 65536 }) = none
      ∧ validate {} (some { cfg0 with smy := some (-1) }) = none ∧ Settled ((cold []).takePort (.attach none)).inbox :=
  ⟨by decide, rfl, rfl, by decide, by decide, by decide, settled_nil⟩

theorem witness_attach_succeeds :
    (cold (attachMoves [0x55, 0x55, 0x55, 0x55])).par.lit = Config.lit
      ∧ (cold (attachMoves [0x55, 0x55, 0x55, 0x55])).atRest = true ∧ validate {} (some cfg0) = some valid0
      ∧ validate { sensorMaxSource := .config } (some { cfg0 with snx := some 0, sny := some 65535 })
        = some { valid0 with sensor := some (0, 65535) }
      ∧ Settled [] ∧ ((cold (attachMoves [0x55, 0x55, 0x55, 0x55])).takePort (.attach (some cfg0))).inbox
        = List.flatten
          [[.reply 0 (.pin (some 1)), .reply 0 (.pin (some 2)), .reply 0 .done, .reply 0 (.opened true), .reply 0 .done,
            .reply 0 .done, .reply 0 (.received 4 [0x55, 0x55, 0x55, 0x55])],
           transactAnswers (fun _ => 0) 7 0x00 0x01 0xF0, [.reply 0 .done],
           transactAnswers (fun _ => 0) 11 0x63 0x00 0x80, [.reply 0 .done],
           transactAnswers (fun _ => 0) 15 0x60 0x00 0x40, [.reply 0 (.registered true)], []] :=
  ⟨rfl, by decide, by decide, by decide, settled_nil, by decide⟩

/-- The state of a step with this call outstanding and this answer next. -/
def stuckAt (l : Label) (c : Call) (r : Reply) : State := { cold [.reply 0 r] with step := some l, call := some c }

theorem witness_attach_failures :
    Answering (stuckAt .a3 (.requestPin .reset) (.pin none)) .a3 (.requestPin .reset) 0 (.pin none) []
      ∧ Answering (stuckAt .a4 (.requestPin .int) (.pin none)) .a4 (.requestPin .int) 0 (.pin none) []
      ∧ Answering (stuckAt .a6 .busOpen (.opened false)) .a6 .busOpen 0 (.opened false) []
      ∧ Answering (stuckAt .a9 (.busRecv 4) (.received 3 [])) .a9 (.busRecv 4) 0 (.received 3 []) []
      ∧ Answering (stuckAt .a18 (.hostRegister 1 1) (.registered false)) .a18 (.hostRegister 1 1) 0
        (.registered false) []
      ∧ (let s := { stuckAt .a9 (.busRecv 4) (.received 5 []) with par := { helloRecvFatal := false } }
         Answering s .a9 (.busRecv 4) 0 (.received 5 []) [] ∧ s.par.helloRecvFatal = false ∧ (5 : Int) ≠ 4
          ∧ s.par.lit = Config.lit)
      ∧ (stuckAt .a9 (.busRecv 4) (.received 3 [])).par.lit = Config.lit
      ∧ (stuckAt .a9 (.busRecv 4) (.received 3 [])).par.helloRecvFatal = true
      ∧ (stuckAt .a3 (.requestPin .reset) (.pin none)).hostCanWrite = false
      ∧ Settled (cold []).inbox
      ∧ ({ cold [] with step := some .a16, ur := some (.err (.protocol 0)) } : State).ur = some (.err (.protocol 0)) :=
  ⟨⟨rfl, rfl, rfl, rfl⟩, ⟨rfl, rfl, rfl, rfl⟩, ⟨rfl, rfl, rfl, rfl⟩, ⟨rfl, rfl, rfl, rfl⟩, ⟨rfl, rfl, rfl, rfl⟩,
    ⟨⟨rfl, rfl, rfl, rfl⟩, rfl, by decide, rfl⟩, rfl, rfl, rfl, settled_nil, rfl⟩

/-- The five answers of a release. -/
def fiveDone : List Input := [.reply 0 .done, .reply 0 .done, .reply 0 .done, .reply 0 .done, .reply 0 .done]

/-- With everything held, and with nothing held. -/
theorem witness_abort_releases :
    (let s : State := { ready fiveDone with step := some (.b1 .a18 .host) }
     s.step = some (.b1 .a18 .host) ∧ s.unit = none ∧ s.call = none ∧ s.ur = none ∧ Settled []
      ∧ [0, 0, 0, 0, 0].length = (releases s.res).length
      ∧ s.inbox = [0, 0, 0, 0, 0].map (fun e => Input.reply e .done) ++ [])
      ∧ (let s : State := { cold [] with step := some (.b1 .a3 .pin) }
         s.step = some (.b1 .a3 .pin) ∧ 0 = (releases s.res).length ∧ s.inbox = []) :=
  ⟨⟨rfl, rfl, rfl, rfl, settled_nil, rfl, rfl⟩, ⟨rfl, rfl, rfl⟩⟩

/-- Everything is held at a Ready state. -/
theorem allHeld_ready (moves : List Input) : AllHeld (ready moves) :=
  ⟨rfl, rfl, rfl, rfl, rfl, rfl, ⟨rfl, rfl, rfl, rfl, rfl, rfl, fun h => (by cases h)⟩, rfl, rfl, rfl⟩

/-- The invariant at a Cold state with moves to come. -/
theorem inv_cold (m : Input) : Inv { cold [m] with clock := 5 } :=
  ⟨fun _ => ⟨⟨.inl ⟨.inl rfl, rfl, rfl, rfl, rfl, rfl⟩, fun h => (by cases h)⟩, rfl⟩, fun _ h => (by cases h),
    fun _ _ h => (by cases h), fun _ h => (by cases h), ⟨fun h => (by cases h), fun h => (by cases h)⟩,
    fun h => (by cases h), fun _ h => (by cases h)⟩

/-- The invariant at a Ready state with moves to come. -/
theorem inv_ready (moves : List Input) : Inv (ready moves) :=
  ⟨fun _ => ⟨⟨.inr (.inl ⟨rfl, allHeld_ready moves, rfl⟩), fun h => (by cases h)⟩, rfl⟩, fun _ h => (by cases h),
    fun _ _ h => (by cases h), fun _ h => (by cases h), ⟨fun h => (by cases h), fun h => (by cases h)⟩,
    fun h => (by cases h), fun _ h => (by cases h)⟩

theorem witness_attach_outcomes :
    Inv { cold [.reply 0 (.pin none)] with clock := 5 }
      ∧ ends (exec (.attach (some cfg0)) { cold [.reply 0 (.pin none)] with clock := 5 })
        (fun t => t.step == none && t.life == .detached) = true
      ∧ ends (exec (.attach none) { cold [.reply 0 (.pin none)] with clock := 5 })
        (fun t => t.step == none && t.lastResult == .config) = true
      ∧ ends (exec (.attach (some cfg0)) (cold (attachMoves [0, 0, 0, 0])))
        (fun t => t.step == none && t.life == .ready) = true :=
  ⟨inv_cold _, by decide, by decide, by decide⟩

/-- The same state in an instance whose writes expect a response. -/
def expecting (s : State) : State := { s with par := { writeExpectsResponse := true } }

theorem witness_suspend_resume :
    (ready []).atRest = true ∧ (ready []).life = .ready ∧ (asleep []).atRest = true ∧ (asleep []).life = .suspended
      ∧ (ready []).fault = false ∧ (asleep []).fault = false ∧ (ready []).par.writeExpectsResponse = false
      ∧ Settled [] ∧ (ready []).par.lit = Config.lit ∧ (asleep []).par.lit = Config.lit
      ∧ ((asleep ([.reply 0 (.sent 4), .reply 0 .done, .reply 0 (.sent 3), .reply 0 (.sent 4), .reply 0 .done]
          ++ answers [0x52, 0, 0, 0])).takePort .resume).inbox
        = List.flatten
          [WriteExchange.answers (.send 0 4), [.reply 0 .done], Exchange.answers (.sendFails 0 3),
           WriteExchange.answers (.send 0 4), [.reply 0 .done], Exchange.answers (.replies 0 0 0 0x52 0 0 0), []]
      ∧ Exchange.Proper (.sendFails 0 3) ∧ Exchange.Proper (.recvFails 0 0 0 5 [])
      ∧ Exchange.Proper (.replies 0 0 0 0x52 0 0 0)
      ∧ ends (exec .suspend (ready [.reply 0 (.sent 4), .reply 0 .done, .reply 0 (.sent 4)]))
        (fun t => t.step == none) = true :=
  ⟨by decide, rfl, by decide, rfl, rfl, rfl, rfl, settled_nil, rfl, rfl, by decide,
    (by decide : (3 : Int) ≠ 4), (by decide : (5 : Int) ≠ 4), trivial, by decide⟩

theorem witness_writes_with_response :
    (WriteExchange.send 0 3).Proper (ready []).par.writeExpectsResponse
      ∧ (WriteExchange.transact (.replies 0 0 0 0x51 0 0 0)).Proper (expecting (ready [])).par.writeExpectsResponse
      ∧ (expecting (ready [])).par.lit = Config.lit
      ∧ ((expecting (ready (answers [0x51, 0, 0, 0] ++ [.reply 0 .done] ++ answers [0x52, 0, 0, 0]))).takePort
          .suspend).inbox
        = List.flatten
          [WriteExchange.answers (.transact (.replies 0 0 0 0x51 0 0 0)), [.reply 0 .done],
           WriteExchange.answers (.transact (.replies 0 0 0 0x52 0 0 0)), []] :=
  ⟨rfl, ⟨rfl, trivial⟩, rfl, by decide⟩

-- R27, R28, R142: with a response expected, a bad marker keeps STREAMING_ON and a good response writes POWER_ON
theorem test_suspend_expects_response :
    ends (exec .suspend (expecting (ready (answers [0x51, 0, 0, 0] ++ [.reply 0 .done] ++ answers [0x52, 0, 0, 0]))))
      (fun t => t.ses.streamingOn == none && t.ses.powerOn == some false && t.clock == 20) = true := by decide

theorem witness_detach_releases :
    ((ready fiveDone).atRest = true ∧ (ready fiveDone).life ≠ .detached ∧ Settled []
        ∧ [0, 0, 0, 0, 0].length = (releases (ready fiveDone).res).length
        ∧ ((ready fiveDone).takePort .detach).inbox = [0, 0, 0, 0, 0].map (fun e => Input.reply e .done) ++ [])
      ∧ (let s : State := { cold [] with life := .detached }
         s.atRest = true ∧ s.life = .detached ∧ (s.takePort .detach).inbox = []) :=
  ⟨⟨rfl, by decide, settled_nil, rfl, rfl⟩, ⟨rfl, rfl, rfl⟩⟩

/-- The three clauses: a bad send, a bad receive, and a response, here with a bad marker. -/
theorem witness_finger_query :
    (ready []).atRest = true ∧ (ready []).life = .ready ∧ (ready []).fault = false ∧ Settled []
      ∧ (ready []).par.lit = Config.lit
      ∧ ((ready [.reply 0 (.sent 0)]).takePort .fingerQuery).inbox = [.reply 0 (.sent 0)] ∧ (0 : Int) ≠ 4
      ∧ ((ready [.reply 0 (.sent 4), .reply 0 .done, .reply 0 (.received 3 [])]).takePort .fingerQuery).inbox
        = [.reply 0 (.sent 4), .reply 0 .done, .reply 0 (.received 3 [])]
      ∧ ((ready (answers [0x51, 0, 0, 0])).takePort .fingerQuery).inbox
        = [.reply 0 (.sent 4), .reply 0 .done, .reply 0 (.received 4 [0x51, 0, 0, 0])] :=
  ⟨rfl, rfl, rfl, settled_nil, rfl, rfl, by decide, rfl, rfl⟩

theorem witness_step_runs_decoded :
    ({ ready [] with hostReq := some ⟨4, none⟩ } : State).fetch = some (.request ⟨4, none⟩)
      ∧ decode {} (.request ⟨4, none⟩) = .ok .fingerQuery := by decide

/-- A command that stands at T1 with its answer next. -/
def atT1 : State := { ready [.reply 0 (.sent 4)] with step := some .f1, unit := some (.fingerRead, .t1) }

theorem witness_step_finds_bits :
    ((ready [.irq]).hostCanWrite = false ∧ (ready [.irq]).inbox = [.irq])
      ∧ (atT1.hostCanWrite = false ∧ atT1.asyncNext = false ∧ atT1.call = none ∧ atT1.unit = some (.fingerRead, .t1))
      ∧ ((awaiting .powerRead [0x52, 0, 0, 0]).hostCanWrite = false
        ∧ (awaiting .powerRead [0x52, 0, 0, 0]).unit = some (.powerRead, .t3)
        ∧ (awaiting .powerRead [0x52, 0, 0, 0]).call = some (.busRecv 4)
        ∧ (awaiting .powerRead [0x52, 0, 0, 0]).inbox = [.reply 0 (.received 4 [0x52, 0, 0, 0])]
        ∧ decode {} (.reply [0x52, 0, 0, 0]) = .ok (.resp 0 0 0)) := by decide

theorem witness_step_finds_frames :
    ((atHello [0x55, 0x55, 0x55, 0x55]).hostCanWrite = false
      ∧ Answering (atHello [0x55, 0x55, 0x55, 0x55]) .a9 (.busRecv 4) 0 (.received 4 [0x55, 0x55, 0x55, 0x55]) []
      ∧ decode {} (.hello [0x55, 0x55, 0x55, 0x55]) = .ok .hello)
    ∧ (atFrame (0x66 :: List.replicate 24 0) []).hostCanWrite = false
      ∧ Answering (atFrame (0x66 :: List.replicate 24 0) []) .i4 (.busRecv 25) 0
          (.received 25 (0x66 :: List.replicate 24 0)) []
      ∧ decode {} (.irq (0x66 :: List.replicate 24 0)) = .ok (.irqCalib (List.replicate 24 0)) :=
  ⟨⟨by decide, ⟨rfl, rfl, rfl, rfl⟩, by decide⟩, by decide, ⟨rfl, rfl, rfl, rfl⟩, by decide⟩

/-- At rest in Ready with this in the request port, the interrupt latched or not, and these moves to come. -/
def pending (q : Option HostReq) (latched : Bool) (moves : List Input) : State :=
  { ready moves with hostReq := q, irqPend := latched }

theorem witness_arbiter_choice :
    ∀ s ∈ [pending (some ⟨1, none⟩) false [], { pending (some ⟨3, none⟩) true [] with fault := true },
        pending none true [], pending (some ⟨1, none⟩) true [.turn true], pending (some ⟨1, none⟩) true [.turn false],
        pending (some ⟨1, none⟩) true []],
      s.atRest = true ∧ s.hostCanWrite = false ∧ s.asyncNext = false := by decide

-- R66: a pending request alone is executed, a pending interrupt alone starts its DISPATCH
theorem test_one_pending :
    ends (step (pending (some ⟨1, none⟩) false [])) (fun t => t.hostReq == none && t.stepName == some .s2) = true
      ∧ ends (step (pending none true [])) (fun t => t.call == some .readAndAck && !t.irqPend) = true := by decide

theorem witness_other_agents :
    (ready [.request ⟨1, none⟩]).hostCanWrite = false ∧ (ready [.rst]).hostCanWrite = false
      ∧ (ready [.portRead 31 0xFFFF]).hostCanWrite = false
      ∧ ({ ready [.request ⟨1, none⟩] with hostReq := some ⟨2, none⟩ } : State).hostCanWrite = false
      ∧ (let s : State := { ready [.irq] with hostWait := [⟨1, none⟩, ⟨2, none⟩] }
         s.hostReq = none ∧ s.hostWait = [⟨1, none⟩, ⟨2, none⟩]) := by decide

theorem witness_fault_is_sticky :
    let s : State := { ready [.irq] with fault := true, faultCause := .normalizerDivZero }
    s.fault = true ∧ (∀ rest, s.inbox ≠ .rst :: rest) ∧ s.step = none
      ∧ s.call ≠ some .readAndAck ∧ ends (step s) (fun t => t.fault && t.irqPend == false && t.trace == []) = true :=
  ⟨rfl, fun _ h => (by cases h), rfl, by decide, by decide⟩

theorem witness_trace_grows :
    ends (step (ready [.irq, .reply 3 (.acked false)])) (fun t => t.trace.length == 2 && t.clock == 3) = true := by decide

theorem witness_operations_bounded :
    (ready [.reply 0 (.sent 4)]).atRest = true
      ∧ ends (exec .suspend (ready [.reply 0 (.sent 4)])) (fun t => t.step == some .s3) = true
      ∧ ends (exec .irqLine (ready [.irq])) (fun t => t.step == some .i2) = true
      ∧ ends (step { ready [] with irqPend := true }) (fun t => t.step == some .i2) = true := by decide

-- R22, R201: LIFE is Reset while the pulse is outstanding and AwaitHello while the hello is
theorem test_life_of_attach :
    ends (exec (.attach (some cfg0)) (cold ((attachMoves []).take 4)))
        (fun t => t.call == some .pulseReset && t.life == .reset) = true
      ∧ ends (exec (.attach (some cfg0)) (cold ((attachMoves []).take 6)))
        (fun t => t.call == some (.busRecv 4) && t.life == .awaitHello) = true
      ∧ ends (exec (.attach (some cfg0)) (cold ((attachMoves [0, 0, 0, 0]).take 7)))
        (fun t => t.sub == some (.t .t1) && t.life == .queryInfo) = true := by decide

theorem witness_invariant :
    Inv (ready [.irq]) ∧ ends (step (ready [.irq])) (fun t => t.step == some .i2) = true
      ∧ (ready [.irq]).curOp = .idle :=
  ⟨inv_ready _, by decide, by decide⟩

theorem witness_report_scan :
    ({} : Params).lit = Config.lit ∧ (0x5D :: 0x01 :: reportTail).length = 25
      ∧ (decodeReport {} (0x5D :: 0x01 :: reportTail)).fc ≠ 0 ∧ (decodeReport {} (0x5D :: 0x08 :: reportTail)).fc = 0 := by decide

theorem witness_normalize :
    SensorMax (ready []) 2048 1024 ∧ ScreenSetup (ready []) 800 480 false false false
      ∧ SensorMax (flat []) 0 1024 ∧ (0 : Nat) < 2048 ∧ (597 : Nat) ≤ 598 ∧ (0 : Int) ≤ 0 ∧ (0 : Int) ≤ (0 : Nat) :=
  ⟨And.intro rfl rfl, by decide, And.intro rfl rfl, by decide⟩

end Sys2Proof.Tests
end

/-! The report decoder: what one slot of a report frame decodes to (R163). -/

section
namespace Sys2Proof.Proofs.Decoder

open Sys2Proof Sys2Proof.Machine

/-! ## The packing of a coordinate: a high half byte above a low byte -/

/-- `(b & 0x0F) << 8`, the high part of x, is the low half byte at bit 8. -/
theorem toNat_lowHalf_shiftLeft (b : Byte) :
    ((b &&& 0x0F).setWidth 12 <<< 8).toNat = b.toNat % 16 * 256 := by
  have hmask : (b &&& 0x0F).toNat = b.toNat % 16 := by
    simpa using Nat.and_two_pow_sub_one_eq_mod b.toNat 4
  rw [BitVec.toNat_shiftLeft, BitVec.toNat_setWidth, hmask, Nat.shiftLeft_eq]
  omega

/-- `(b & 0xF0) << 4`, the high part of y, is the high half byte at bit 8. -/
theorem toNat_highHalf_shiftLeft (b : Byte) :
    ((b &&& 0xF0).setWidth 12 <<< 4).toNat = b.toNat / 16 * 256 := by
  have hmask : b &&& (0xF0 : Byte) = b >>> 4 <<< 4 :=
    (BitVec.shiftLeft_ushiftRight (x := b) (n := 4)).symm
  have hb : b.toNat < 256 := b.isLt
  rw [hmask, BitVec.toNat_shiftLeft, BitVec.toNat_setWidth, BitVec.toNat_shiftLeft, BitVec.toNat_ushiftRight,
    Nat.shiftRight_eq_div_pow, Nat.shiftLeft_eq, Nat.shiftLeft_eq]
  omega

/-- Below a high part that stands at bit 8, or-ing a byte in is adding it: the two share no bit. -/
theorem toNat_or_lowByte {hi : BitVec 12} {k : Nat} (h : hi.toNat = k * 256) (lo : Byte) :
    (hi ||| lo.setWidth 12).toNat = k * 256 + lo.toNat := by
  have hlo : lo.toNat < 2 ^ 8 := lo.isLt
  have hwidth : (lo.setWidth 12).toNat = lo.toNat := BitVec.toNat_setWidth_of_le (by decide)
  calc (hi ||| lo.setWidth 12).toNat
      = 2 ^ 8 * k ||| lo.toNat := by rw [BitVec.toNat_or, h, hwidth, Nat.mul_comm]
    _ = 2 ^ 8 * k + lo.toNat := (Nat.two_pow_add_eq_or_of_lt hlo k).symm
    _ = k * 256 + lo.toNat := by omega

/-! ## What `decodeSlot` answers -/

/-- The all-zero triple is the empty slot (lift). -/
theorem decodeSlot_zero (i : Nat) : decodeSlot i 0 0 0 = { slot := i, pos := none } := rfl

/-- Every other triple is a present point, packed as R163 writes it. -/
theorem decodeSlot_of_ne_zero (i : Nat) {b0 b1 b2 : Byte} (h : ¬(b0 = 0 ∧ b1 = 0 ∧ b2 = 0)) :
    decodeSlot i b0 b1 b2 =
      { slot := i
        pos := some (((b0 &&& 0x0F).setWidth 12 <<< 8) ||| b2.setWidth 12,
                     ((b0 &&& 0xF0).setWidth 12 <<< 4) ||| b1.setWidth 12) } :=
  if_neg h

@[simp] theorem decodeSlot_slot (i : Nat) (b0 b1 b2 : Byte) : (decodeSlot i b0 b1 b2).slot = i := by
  by_cases h : b0 = 0 ∧ b1 = 0 ∧ b2 = 0
  · obtain ⟨rfl, rfl, rfl⟩ := h
    rw [decodeSlot_zero]
  · rw [decodeSlot_of_ne_zero i h]

theorem decodeSlot_pos_eq_none_iff (i : Nat) (b0 b1 b2 : Byte) :
    (decodeSlot i b0 b1 b2).pos = none ↔ b0 = 0 ∧ b1 = 0 ∧ b2 = 0 := by
  constructor
  · intro hnone
    by_contra h
    simp [decodeSlot_of_ne_zero i h] at hnone
  · rintro ⟨rfl, rfl, rfl⟩
    rw [decodeSlot_zero]

/-- The low byte of x is b2 and that of y is b1; the high parts are the two halves of b0. -/
theorem toNat_of_decodeSlot_pos_eq_some {i : Nat} {b0 b1 b2 : Byte} {x y : BitVec 12}
    (hpos : (decodeSlot i b0 b1 b2).pos = some (x, y)) :
    x.toNat = b0.toNat % 16 * 256 + b2.toNat ∧ y.toNat = b0.toNat / 16 * 256 + b1.toNat := by
  have h : ¬(b0 = 0 ∧ b1 = 0 ∧ b2 = 0) := by
    rw [← decodeSlot_pos_eq_none_iff i, hpos]
    exact Option.some_ne_none _
  rw [decodeSlot_of_ne_zero i h] at hpos
  cases hpos
  exact ⟨toNat_or_lowByte (toNat_lowHalf_shiftLeft b0) b2, toNat_or_lowByte (toNat_highHalf_shiftLeft b0) b1⟩

/-- Settles O55: the slot index, the empty slot and the two packed coordinates of R163, each from its own lemma. -/
theorem slotDecoding : Obligations.SlotDecoding := fun i b0 b1 b2 =>
  ⟨decodeSlot_slot i b0 b1 b2, decodeSlot_pos_eq_none_iff i b0 b1 b2, fun _ _ => toNat_of_decodeSlot_pos_eq_some⟩

end Sys2Proof.Proofs.Decoder
end

/-! The normalizer: the order of its stages and its fault on a zero sensor maximum (R180 to R184, R186). -/

section
namespace Sys2Proof.Proofs.Normalizer

open Sys2Proof Sys2Proof.Machine Sys2Proof.Safety

/-! ## The registers that the normalizer reads -/

/-- `readReg_map_ok` in the spelling of `SensorMax`: a mapped read answers what mapping the register gives. -/
theorem readReg_map_eq_ok_iff {α β : Type} {n : RegName} {o : Option α} {f : α → β} {v : β} :
    (readReg n o).map f = .ok v ↔ o.map f = some v :=
  readReg_map_ok.trans Option.map_eq_some_iff.symm

/-- Under either source of R32, the sensor maxima are read without a fault. -/
theorem sensorMax_ok {s : State} {nx ny : Nat} (h : SensorMax s nx ny) :
    s.sensorMaxX = .ok nx ∧ s.sensorMaxY = .ok ny := by
  unfold SensorMax at h
  unfold State.sensorMaxX State.sensorMaxY
  cases hsource : s.par.sensorMaxSource <;> rw [hsource] at h <;>
    exact h.imp readReg_map_eq_ok_iff.mpr readReg_map_eq_ok_iff.mpr

/-! ## The three stages -/

/-- The model's stages, composed, are those of R181 to R183 written out. -/
theorem normalizePoint_eq_screenPoint (smx smy nx ny : Nat) (fx fy fxy : Bool) (p : BitVec 12 × BitVec 12) :
    normalizePoint smx smy nx ny fx fy fxy p.1.toNat p.2.toNat = screenPoint smx smy nx ny fx fy fxy p := by
  cases fxy <;> rfl

/-! ## What `State.normalize` answers -/

/-- R186: the zero check needs the sensor maxima alone; the screen registers may be unset. -/
theorem normalize_of_sensorMax_zero {s : State} {nx ny : Nat} (hmax : SensorMax s nx ny) (hzero : nx = 0 ∨ ny = 0)
    (x y : Nat) : s.normalize x y = .ok .divZero := by
  obtain ⟨hnx, hny⟩ := sensorMax_ok hmax
  unfold State.normalize
  rw [hnx, hny]
  exact if_pos hzero

/-- R180 past the zero check: the stages on the values of the seven registers. -/
theorem normalize_of_sensorMax_ne_zero {s : State} {smx smy : BitVec 16} {nx ny : Nat} {fx fy fxy : Bool}
    (hmax : SensorMax s nx ny) (hx : nx ≠ 0) (hy : ny ≠ 0) (hscreen : ScreenSetup s smx smy fx fy fxy) (x y : Nat) :
    s.normalize x y = .ok (.ok (normalizePoint smx.toNat smy.toNat nx ny fx fy fxy x y)) := by
  obtain ⟨hnx, hny⟩ := sensorMax_ok hmax
  obtain ⟨hsmx, hsmy, hfx, hfy, hfxy⟩ := hscreen
  unfold State.normalize
  rw [hnx, hny, hsmx, hsmy, hfx, hfy, hfxy]
  exact if_neg (not_or.mpr ⟨hx, hy⟩)

/-- Settles O58: the zero check by `normalize_of_sensorMax_zero`; past it the stages run, and they are those of
`screenPoint`. -/
theorem normalizeStages : Obligations.NormalizeStages := by
  intro s smx smy nx ny fx fy fxy x y hmax
  refine ⟨fun hzero => normalize_of_sensorMax_zero hmax hzero _ _, fun hx hy hscreen => ?_⟩
  rw [normalize_of_sensorMax_ne_zero hmax hx hy hscreen,
    ← normalizePoint_eq_screenPoint smx.toNat smy.toNat nx ny fx fy fxy (x, y)]

end Sys2Proof.Proofs.Normalizer
end

/-! The arbiter's taking of a request: what leaves the port, and what the operation enters with (R42, R66, R200). -/

section
namespace Sys2Proof.Proofs.Arbiter

open Sys2Proof Sys2Proof.Machine

/-! ## What the port half does -/

theorem holdsRequest_iff (i : Instr) (s : State) :
    s.holdsRequest i = true ↔ s.hostReq.map decodeRequest = some i :=
  beq_iff_eq

/-- The choice and the turn that carries it are no registers: they cost a move of the inbox or a free choice. -/
theorem arbitrate_popTurn (s : State) :
    ∃ moves n, s.arbitrate.2.popTurn = { s with inbox := moves, freeCount := n } := by
  obtain ⟨n, hchoice⟩ : ∃ n, s.arbitrate.2 = { s with freeCount := n } := by
    rcases arbitrate_state s with h | h
    · exact ⟨s.freeCount, h⟩
    · exact ⟨s.freeCount + 1, h⟩
  rw [hchoice]
  rcases popTurn_cases { s with freeCount := n } with ⟨_, rest, _, hturn⟩ | ⟨_, hturn⟩
  · exact ⟨rest, n, hturn⟩
  · exact ⟨s.inbox, n, hturn⟩

/-- A request that stands in HOST_REQ is taken out of it; beside it only the inbox and the free counter move. -/
theorem takePort_of_held {i : Instr} {s : State} (h : s.hostReq.map decodeRequest = some i) :
    ∃ moves n, s.takePort i = { s with hostReq := none, inbox := moves, freeCount := n } := by
  obtain ⟨moves, n, hchoice⟩ := arbitrate_popTurn s
  refine ⟨moves, n, ?_⟩
  rw [State.takePort, if_pos ((holdsRequest_iff i s).mpr h), hchoice]

/-- A request that does not stand in HOST_REQ leaves the whole state alone. -/
theorem takePort_of_not_held {i : Instr} {s : State} (h : s.hostReq.map decodeRequest ≠ some i) :
    s.takePort i = s :=
  if_neg (mt (holdsRequest_iff i s).mp h)

/-- Held in the port or not, HOST_REQ, the inbox and the free counter are all that the port half can change. -/
theorem takePort_frame (i : Instr) (s : State) :
    ∃ q moves n, s.takePort i = { s with hostReq := q, inbox := moves, freeCount := n } := by
  by_cases h : s.hostReq.map decodeRequest = some i
  · exact ⟨none, takePort_of_held h⟩
  · exact ⟨s.hostReq, s.inbox, s.freeCount, takePort_of_not_held h⟩

/-- Settles O25: the port half by whether the request stands in HOST_REQ, its frame by `takePort_frame`; the other half
is what `State.takeRequest` writes. -/
theorem arbiterTakesRequest : Obligations.ArbiterTakesRequest := by
  intro i s
  refine ⟨fun hheld => ?_, takePort_of_not_held, ?_, fun _ => rfl⟩
  · obtain ⟨moves, n, htaken⟩ := takePort_of_held hheld
    rw [htaken]
  · obtain ⟨q, moves, n, hframe⟩ := takePort_frame i s
    simp [hframe]

end Sys2Proof.Proofs.Arbiter
end

/-! The interrupt dispatcher: what a frame that I4 receives leaves behind, by its opcode (R240, R241, R243 to R245). -/

section
namespace Sys2Proof.Proofs.Dispatcher

open Sys2Proof Sys2Proof.Machine Sys2Proof.Safety

/-! ## A step with no move of another agent before it -/

theorem asyncNext_of_settled {s : State} (h : Settled s.inbox) : s.asyncNext = false := by
  unfold State.asyncNext
  split
  · next i _ hinbox =>
    obtain ⟨d, r, rfl⟩ := h i (by rw [hinbox]; rfl)
    rfl
  · rfl

theorem popTurn_of_settled {s : State} (h : Settled s.inbox) : s.popTurn = s := by
  rcases popTurn_cases s with ⟨b, rest, hturn, _⟩ | ⟨_, hkeep⟩
  · obtain ⟨d, r, hreply⟩ := h (.turn b) (by rw [hturn]; rfl)
    cases hreply
  · exact hkeep

/-- A run at the start of a step makes the step's move. -/
theorem run_labelBegin {s t : State} {l : Label} (n : Nat) (hstep : s.step = some l) (hunit : s.unit = none)
    (hcall : s.call = none) (hur : s.ur = none) (hsettled : Settled s.inbox) (hbegin : labelBegin l s = .ok t) :
    run (fun t => t.step.isSome) (n + 1) s = run (fun t => t.step.isSome) n t := by
  refine run_advance n (by rw [hstep]; rfl) hcall (asyncNext_of_settled hsettled) ?_
  rw [popTurn_of_settled hsettled]
  simp only [State.advance, hunit, hstep, hur, hbegin]

/-- `end(r)` (R21) ends the run of the operation. -/
theorem run_finish (n : Nat) (r : ResultCode) (v : Option Bool) (s : State) :
    run (fun t => t.step.isSome) n (s.finish r v) = .next (s.finish r v) :=
  run_done n rfl

/-! ## The receive at I4 -/

/-- A DISPATCH that stands at the start of step `l` with the frame `f` received: `s` is the state before the answer,
`d` the time the receive took. -/
def frameAt (l : Label) (f : List Byte) (rest : List Input) (d : Nat) (s : State) : State :=
  { s with
    step := some l, unit := none, ur := none, call := none, rx := some f, inbox := rest, clock := s.clock + d,
    trace := s.trace ++ [.call (.busRecv 25) (.received 25 f)] }

/-- `end(OK)` right at step `l` (R241). -/
theorem finish_frameAt {l : Label} (hop : l.name.op = .dispatch) (f : List Byte) (rest : List Input) (d : Nat)
    (s : State) :
    (frameAt l f rest d s).finish .ok none =
      ended .ok (some f) rest d [.call (.busRecv 25) (.received 25 f)] s :=
  finish_dispatch (s := frameAt l f rest d s) hop .ok none

/-- One diagnostic at step `l`, then `end(OK)` (R243 to R245). -/
theorem finish_diag_frameAt {l : Label} (hop : l.name.op = .dispatch) (c : DiagCode) (info : DiagInfo)
    (f : List Byte) (rest : List Input) (d : Nat) (s : State) :
    ((frameAt l f rest d s).diag c info).finish .ok none =
      ended .ok (some f) rest d
        [.call (.busRecv 25) (.received 25 f), .diag ⟨c, .dispatch, some l.name, info⟩] s := by
  have hcur : (frameAt l f rest d s).curOp = .dispatch := hop
  have hname : (frameAt l f rest d s).stepName = some l.name := rfl
  have hend := finish_dispatch (s := (frameAt l f rest d s).diag c info) hop .ok none
  rw [hend, State.diag, hcur, hname]
  simp [State.emit, frameAt, ended]

/-- An instruction that encodes to an interrupt frame runs I4's receive of that frame. -/
theorem exec_of_encode_irq {i : Instr} {f : List Byte} {s : State} (henc : encode s.par i = .irq f) :
    exec i s = execIrqFrame f s := by
  cases i <;> cases henc <;> rfl

theorem length_of_encode_irq {i : Instr} {p : Params} {f : List Byte} (hlength : Laws.FrameLength.Statement i)
    (hwf : i.WellFormed = true) (hlit : p.lit = Config.lit) (henc : encode p i = .irq f) : f.length = 25 := by
  have hwire := hlength p hlit hwf
  rw [henc] at hwire
  exact beq_iff_eq.mp hwire

section
variable {s : State} {f more : List Byte} {d : Nat} {rest : List Input}

theorem awaitsIrqFrame_of_answering {r : Reply} (hlit : s.par.lit = Config.lit)
    (h : Answering s .i4 (.busRecv 25) d r rest) : s.awaitsIrqFrame = true := by
  simp [State.awaitsIrqFrame, State.stepName, h.call, h.unit, h.step, hlit, Config.lit, Label.name]

/-- I4 answered with a whole frame (R111, R240): the frame is in RX and the DISPATCH stands at I5. -/
theorem receiveFrame_of_answering (hlit : s.par.lit = Config.lit) (hlen : f.length = 25)
    (h : Answering s .i4 (.busRecv 25) d (.received 25 (f ++ more)) rest) :
    s.receiveFrame f = frameAt .i5 f rest d s := by
  have hhead : s.inbox = .reply d (.received (f.length : Int) (f ++ more)) :: rest := by rw [hlen]; exact h.inbox
  have htake : f.take 25 = f := List.take_of_length_le hlen.le
  rw [receiveFrame_head hhead, takeAnswer_label (s := { s with inbox := rest }) h.unit h.step, hlen]
  simp [labelAnswer, Reply.onReceived, State.frameReceived, State.answered, State.goto, Call.record, Call.minTime,
    frameAt, h.unit, hlit, Config.lit, htake]

/-- An interrupt frame that a DISPATCH waits for is received and the DISPATCH runs on from I5. -/
theorem exec_irq_eq_runOp {i : Instr} (hlength : Laws.FrameLength.Statement i) (henc : encode s.par i = .irq f)
    (hwf : i.WellFormed = true) (hlit : s.par.lit = Config.lit)
    (h : Answering s .i4 (.busRecv 25) d (.received 25 (f ++ more)) rest) :
    exec i s = runOp (frameAt .i5 f rest d s) := by
  have hlen : f.length = 25 := length_of_encode_irq hlength hwf hlit henc
  have hready : (s.awaitsIrqFrame && f.length == s.par.lit.rptLen) = true := by
    rw [awaitsIrqFrame_of_answering hlit h, hlen, hlit]
    rfl
  rw [exec_of_encode_irq henc, execIrqFrame, if_pos hready, receiveFrame_of_answering hlit hlen h]

/-! ## From I5 to the end -/

/-- A frame that I5 ignores ends the DISPATCH there (R241). -/
theorem runOp_of_ignored (hsettled : Settled rest)
    (hroute : (frameAt .i5 f rest d s).routeOpcode = .ok ((frameAt .i5 f rest d s).finish .ok none)) :
    runOp (frameAt .i5 f rest d s) =
      .next (ended .ok (some f) rest d [.call (.busRecv 25) (.received 25 f)] s) := by
  rw [← finish_frameAt (l := .i5) rfl]
  exact (run_labelBegin (l := .i5) _ rfl rfl rfl rfl hsettled hroute).trans (run_finish _ _ _ _)

/-- A frame that I5 routes to a step that only logs it ends the DISPATCH after its one diagnostic (R243 to R245). -/
theorem runOp_of_logged {l : Label} {c : DiagCode} {info : DiagInfo} (hsettled : Settled rest)
    (hop : l.name.op = .dispatch)
    (hroute : (frameAt .i5 f rest d s).routeOpcode = .ok (frameAt l f rest d s))
    (hlog : labelBegin l (frameAt l f rest d s) = .ok (((frameAt l f rest d s).diag c info).finish .ok none)) :
    runOp (frameAt .i5 f rest d s) =
      .next (ended .ok (some f) rest d
        [.call (.busRecv 25) (.received 25 f), .diag ⟨c, .dispatch, some l.name, info⟩] s) := by
  rw [← finish_diag_frameAt hop]
  calc runOp (frameAt .i5 f rest d s)
      = run (fun t => t.step.isSome) _ (frameAt l f rest d s) :=
        run_labelBegin (l := .i5) _ rfl rfl rfl rfl hsettled hroute
    _ = run (fun t => t.step.isSome) _ _ := run_labelBegin _ rfl rfl rfl rfl hsettled hlog
    _ = _ := run_finish _ _ _ _

end

/-- I5 (R240): the four opcodes that have a step, and all the others. -/
theorem routeOpcode_of_rx {s : State} {op : Byte} {tail : List Byte} (hlit : s.par.lit = Config.lit)
    (hrx : s.rx = some (op :: tail)) :
    s.routeOpcode = .ok (
      if op = 0x5D then s.goto .i6 else if op = 0x40 then s.goto .i7 else if op = 0x66 then s.goto .i8
      else if op = 0x55 then s.goto .i9 else s.finish .ok none) := by
  unfold State.routeOpcode
  rw [hrx, hlit]
  rfl

/-- I7 (R243): the flag is the whole of byte 1. -/
theorem logNoise_of_rx {s : State} {op flag : Byte} {tail : List Byte} (hlit : s.par.lit = Config.lit)
    (hrx : s.rx = some (op :: flag :: tail)) :
    s.logNoise = .ok ((s.diag .noise (.noise (flag == 0x41) flag)).finish .ok none) := by
  unfold State.logNoise noisyOf
  rw [hrx, hlit]
  rfl

/-- R89: the row of the other opcodes leaves these four to their own rows. -/
theorem irqOther_opcode {op : Byte} {tail : List Byte} (h : (Instr.irqOther op tail).WellFormed = true) :
    op ≠ 0x5D ∧ op ≠ 0x40 ∧ op ≠ 0x66 ∧ op ≠ 0x55 := by
  simpa [Instr.WellFormed, Instr.excludedOk, Config.lit, and_assoc] using (Bool.and_eq_true_iff.mp h).2

/-! ## The frames that change nothing but RX -/

/-- Settles O16: I5 routes the frame to I7, which logs byte 1. -/
theorem noiseDispatched : Obligations.NoiseDispatched := by
  intro s d flag tail more rest hwf hsettled hlit hans
  have henc : encode s.par (.irqNoise flag tail) = .irq (0x40 :: flag :: tail) := by rw [encode, hlit]; rfl
  rw [exec_irq_eq_runOp (Laws.FrameLength.irqNoise flag tail) henc hwf hlit hans]
  have hroute : (frameAt .i5 (0x40 :: flag :: tail) rest d s).routeOpcode =
      .ok (frameAt .i7 (0x40 :: flag :: tail) rest d s) :=
    routeOpcode_of_rx (s := frameAt .i5 (0x40 :: flag :: tail) rest d s) hlit rfl
  exact runOp_of_logged (l := .i7) hsettled rfl hroute (logNoise_of_rx (s := frameAt .i7 _ rest d s) hlit rfl)

/-- Settles O17: I5 routes the frame to I8, which reads no byte of it. -/
theorem calibDispatched : Obligations.CalibDispatched := by
  intro s d tail more rest hwf hsettled hlit hans
  have henc : encode s.par (.irqCalib tail) = .irq (0x66 :: tail) := by rw [encode, hlit]; rfl
  rw [exec_irq_eq_runOp (Laws.FrameLength.irqCalib tail) henc hwf hlit hans]
  have hroute : (frameAt .i5 (0x66 :: tail) rest d s).routeOpcode = .ok (frameAt .i8 (0x66 :: tail) rest d s) :=
    routeOpcode_of_rx (s := frameAt .i5 (0x66 :: tail) rest d s) hlit rfl
  exact runOp_of_logged (l := .i8) hsettled rfl hroute rfl

/-- Settles O18: I5 routes the frame to I9, which reads no byte of it. -/
theorem unsolicitedHelloDispatched : Obligations.UnsolicitedHelloDispatched := by
  intro s d tail more rest hwf hsettled hlit hans
  have henc : encode s.par (.irqHello tail) = .irq (0x55 :: tail) := by rw [encode, hlit]; rfl
  rw [exec_irq_eq_runOp (Laws.FrameLength.irqHello tail) henc hwf hlit hans]
  have hroute : (frameAt .i5 (0x55 :: tail) rest d s).routeOpcode = .ok (frameAt .i9 (0x55 :: tail) rest d s) :=
    routeOpcode_of_rx (s := frameAt .i5 (0x55 :: tail) rest d s) hlit rfl
  exact runOp_of_logged (l := .i9) hsettled rfl hroute rfl

/-- Settles O19: none of the four opcodes of I5 stands in byte 0, so I5 ends the DISPATCH. -/
theorem unknownOpcodeIgnored : Obligations.UnknownOpcodeIgnored := by
  intro s d op tail more rest hwf hsettled hlit hans
  obtain ⟨hreport, hnoise, hcalib, hhello⟩ := irqOther_opcode hwf
  rw [exec_irq_eq_runOp (Laws.FrameLength.irqOther op tail) rfl hwf hlit hans]
  apply runOp_of_ignored hsettled
  have hlit' : (frameAt .i5 (op :: tail) rest d s).par.lit = Config.lit := hlit
  rw [routeOpcode_of_rx hlit' rfl, if_neg hreport, if_neg hnoise, if_neg hcalib, if_neg hhello]

end Sys2Proof.Proofs.Dispatcher
end

/-! The decoder and the encoder: each is the other's inverse on well-formed instructions, and the ten frames of R84
(30_encoding.md R81 to R94). -/

section
namespace Sys2Proof.Proofs.Encoding

open Sys2Proof Sys2Proof.Machine Sys2Proof.Safety

/-! ## Command frames -/

/-- The byte that carries the power bit, by PWR_WRITE_BYTE (R132). -/
def powerByteOf (p : Params) (command hi lo : Byte) : Byte :=
  match p.pwrWriteByte with
  | .command => command
  | .paramHi => hi
  | .paramLo => lo

/-- The byte that carries the packet state, by PKT_WRITE_BYTE (R136). -/
def packetByteOf (p : Params) (hi lo : Byte) : Byte :=
  match p.pktWriteByte with
  | .paramHi => hi
  | .paramLo => lo

/-- The unit operation that a command frame of R84 belongs to, read off its bytes: a left inverse of
`UnitOp.frame`, which is why no two unit operations share a frame. -/
def opOfFrame (p : Params) : List Byte → Option UnitOp
  | [m, c, hi, lo] =>
    if m = 0x54 then
      if c = 0x8E then some (.packetWrite (packetByteOf p hi lo == 0x00))
      else some (.powerWrite (powerByteOf p c hi lo &&& 0x08 != 0))
    else if c = 0x00 then some .fwVerRead
    else if c = 0x50 then some .powerRead
    else if c = 0x51 then some .fingerRead
    else if c = 0x8E then some .packetRead
    else if c = 0x63 then some .widthRead
    else some .heightRead
  | _ => none

theorem powerWrite_frame (p : Params) (hlit : p.lit = Config.lit) (on : Bool) :
    UnitOp.frame p (.powerWrite on) =
      (let bit : Byte := if on then 0x08 else 0x00
       match p.pwrWriteByte with
       | .command => [0x54, 0x50 ||| bit, 0x00, p.writeParamOther]
       | .paramHi => [0x54, 0x50, bit, p.writeParamOther]
       | .paramLo => [0x54, 0x50, 0x00, p.writeParamOther ||| bit]) := by
  cases hbyte : p.pwrWriteByte <;> cases on <;> simp [UnitOp.frame, powerBits, hbyte, hlit, Config.lit]

theorem packetWrite_frame (p : Params) (hlit : p.lit = Config.lit) (on : Bool) :
    UnitOp.frame p (.packetWrite on) =
      (let v : Byte := if on then 0x00 else 0x01
       match p.pktWriteByte with
       | .paramHi => [0x54, 0x8E, v, p.writeParamOther]
       | .paramLo => [0x54, 0x8E, 0x00, v]) := by
  cases hbyte : p.pktWriteByte <;> simp [UnitOp.frame, packetBits, hbyte, hlit, Config.lit]

theorem opOfFrame_powerWrite {p : Params} (hlit : p.lit = Config.lit)
    (hother : p.pwrWriteByte = .paramLo → p.writeParamOther &&& 0x08 = 0) (on : Bool) :
    opOfFrame p (UnitOp.frame p (.powerWrite on)) = some (.powerWrite on) := by
  rw [powerWrite_frame p hlit]
  cases hbyte : p.pwrWriteByte with
  | command => cases on <;> simp [opOfFrame, powerByteOf, hbyte]
  | paramHi => cases on <;> simp [opOfFrame, powerByteOf, hbyte]
  | paramLo =>
    have hoff : p.writeParamOther &&& 8#8 = 0#8 := hother hbyte
    have hon : (p.writeParamOther ||| 8#8) &&& 8#8 = 8#8 := by
      rw [BitVec.and_or_distrib_right, hoff, BitVec.and_self, BitVec.zero_or]
    cases on <;> simp [opOfFrame, powerByteOf, hbyte, hoff, hon]

theorem opOfFrame_packetWrite {p : Params} (hlit : p.lit = Config.lit) (on : Bool) :
    opOfFrame p (UnitOp.frame p (.packetWrite on)) = some (.packetWrite on) := by
  rw [packetWrite_frame p hlit]
  cases hbyte : p.pktWriteByte <;> cases on <;> simp [opOfFrame, packetByteOf, hbyte]

theorem opOfFrame_frame {p : Params} (hlit : p.lit = Config.lit)
    (hother : p.pwrWriteByte = .paramLo → p.writeParamOther &&& 0x08 = 0) (op : UnitOp) :
    opOfFrame p (op.frame p) = some op := by
  cases op with
  | powerWrite on => exact opOfFrame_powerWrite hlit hother on
  | packetWrite on => exact opOfFrame_packetWrite hlit on
  | _ => simp [UnitOp.frame, UnitOp.command, opOfFrame, hlit, Config.lit]

theorem mem_all (op : UnitOp) : op ∈ UnitOp.all := by
  cases op with
  | powerWrite on => cases on <;> decide
  | packetWrite on => cases on <;> decide
  | _ => decide

/-- Looking up a frame that a unit operation sends finds one that sends it. -/
theorem find_frame (p : Params) (op : UnitOp) :
    ∃ o, UnitOp.all.find? (fun o => o.frame p == op.frame p) = some o ∧ o.frame p = op.frame p := by
  have hsome : (UnitOp.all.find? (fun o => o.frame p == op.frame p)).isSome :=
    List.find?_isSome.mpr ⟨op, mem_all op, beq_self_eq_true _⟩
  obtain ⟨o, hfind⟩ := Option.isSome_iff_exists.mp hsome
  exact ⟨o, hfind, by simpa using List.find?_some hfind⟩

/-- Every frame that a unit operation sends decodes, to a unit operation that sends the same frame. -/
theorem decode_frame (p : Params) (op : UnitOp) :
    ∃ o : UnitOp, decode p (.sent (op.frame p)) = .ok o.instr ∧ o.frame p = op.frame p := by
  obtain ⟨o, hfind, hframe⟩ := find_frame p op
  exact ⟨o, by simp [decode, decodeSent, hfind], hframe⟩

theorem encode_command (p : Params) (op : UnitOp) : encode p op.instr = .sent (op.frame p) := by
  cases op with
  | powerWrite on => cases on <;> rfl
  | packetWrite on => cases on <;> rfl
  | _ => rfl

theorem wellFormed_command (op : UnitOp) : op.instr.WellFormed = true := by
  cases op with
  | powerWrite on => cases on <;> rfl
  | packetWrite on => cases on <;> rfl
  | _ => rfl

/-- The command rows: the frame belongs to one unit operation only. -/
theorem decode_encode_command {p : Params} (hlit : p.lit = Config.lit)
    (hother : p.pwrWriteByte = .paramLo → p.writeParamOther &&& 0x08 = 0) (op : UnitOp) :
    decode p (encode p op.instr) = .ok op.instr := by
  obtain ⟨o, hdecode, hframe⟩ := decode_frame p op
  have hop : o = op := by
    have := congrArg (opOfFrame p) hframe
    rw [opOfFrame_frame hlit hother, opOfFrame_frame hlit hother] at this
    exact Option.some.inj this
  rw [encode_command, hdecode, hop]

/-! ## Received frames -/

theorem decodeReply_of_marker {p : Params} (hlit : p.lit = Config.lit) (m r1 r2 r3 : Byte) :
    decodeReply p [m, r1, r2, r3] = .ok (if m = 0x52 then .resp r1 r2 r3 else .respBadMarker m r1 r2 r3) := by
  unfold decodeReply
  rw [hlit]
  exact (apply_ite Except.ok (m = 0x52) _ _).symm

theorem decodeHello_of_bytes {p : Params} (hlit : p.lit = Config.lit) (b0 b1 b2 b3 : Byte) :
    decodeHello p [b0, b1, b2, b3] =
      .ok (if [b0, b1, b2, b3] = [0x55, 0x55, 0x55, 0x55] then .hello else .helloMismatch b0 b1 b2 b3) := by
  unfold decodeHello
  rw [hlit]
  exact (apply_ite Except.ok ([b0, b1, b2, b3] = [0x55, 0x55, 0x55, 0x55]) _ _).symm

/-- The rows of R89 for a frame of 25 bytes, by its opcode. -/
theorem decodeIrq_of_length {p : Params} (hlit : p.lit = Config.lit) (op b1 : Byte) {rest : List Byte}
    (hlen : rest.length = 23) :
    decodeIrq p (op :: b1 :: rest) = .ok (
      if op = 0x5D then .irqReport b1 rest else if op = 0x40 then .irqNoise b1 rest
      else if op = 0x66 then .irqCalib (b1 :: rest) else if op = 0x55 then .irqHello (b1 :: rest)
      else .irqOther op (b1 :: rest)) := by
  simp only [decodeIrq, hlit, Config.lit, hlen]
  split_ifs <;> first | rfl | omega

theorem decodeIrq_wrongLength {p : Params} (hlit : p.lit = Config.lit) (op b1 : Byte) {rest : List Byte}
    (hlen : rest.length ≠ 23) : decodeIrq p (op :: b1 :: rest) = .error .wrongLength := by
  simp [decodeIrq, hlit, Config.lit, hlen]

/-- A payload of 24 bytes is byte 1 and 23 more. -/
theorem exists_cons_of_length {tail : List Byte} (h : tail.length = 24) :
    ∃ b1 rest, tail = b1 :: rest ∧ rest.length = 23 := by
  cases tail with
  | nil => cases h
  | cons b1 rest => exact ⟨b1, rest, rfl, by simpa using h⟩

/-- The opcode of a row whose payload is the 24 bytes after it. -/
theorem decode_irq_payload {p : Params} (hlit : p.lit = Config.lit) (op : Byte) {tail : List Byte}
    (hlen : tail.length = 24) (hreport : op ≠ 0x5D) (hnoise : op ≠ 0x40) :
    decode p (.irq (op :: tail)) = .ok (
      if op = 0x66 then .irqCalib tail else if op = 0x55 then .irqHello tail else .irqOther op tail) := by
  obtain ⟨b1, rest, rfl, hrest⟩ := exists_cons_of_length hlen
  simp only [decode, decodeIrq_of_length hlit op b1 hrest, if_neg hreport, if_neg hnoise]

/-- Settles O1: the command rows by their frames, every other row by the byte that tells it from its neighbours. -/
theorem decodeEncode : Obligations.DecodeEncode := by
  intro p i hlit hwf hother
  cases i with
  | reqFwVer => exact decode_encode_command hlit hother .fwVerRead
  | reqPower => exact decode_encode_command hlit hother .powerRead
  | wrPowerOn => exact decode_encode_command hlit hother (.powerWrite true)
  | wrPowerOff => exact decode_encode_command hlit hother (.powerWrite false)
  | reqFinger => exact decode_encode_command hlit hother .fingerRead
  | wrPacketOn => exact decode_encode_command hlit hother (.packetWrite true)
  | wrPacketOff => exact decode_encode_command hlit hother (.packetWrite false)
  | reqPacket => exact decode_encode_command hlit hother .packetRead
  | reqWidth => exact decode_encode_command hlit hother .widthRead
  | reqHeight => exact decode_encode_command hlit hother .heightRead
  | resp r1 r2 r3 => simp [encode, decode, decodeReply]
  | respBadMarker m r1 r2 r3 =>
    have hm : m ≠ 0x52 := by simpa [Instr.WellFormed, Instr.payloadOk, Instr.excludedOk, Config.lit] using hwf
    rw [encode, decode, decodeReply_of_marker hlit, if_neg hm]
  | hello => simp [encode, decode, decodeHello, hlit, Config.lit, List.replicate]
  | helloMismatch b0 b1 b2 b3 =>
    have hb : [b0, b1, b2, b3] ≠ [0x55, 0x55, 0x55, 0x55] := by
      simpa [Instr.WellFormed, Instr.payloadOk, Instr.excludedOk, Config.lit, List.replicate] using hwf
    rw [encode, decode, decodeHello_of_bytes hlit, if_neg hb]
  | irqReport b1 rest =>
    have hlen : rest.length = 23 := by
      simpa [Instr.WellFormed, Instr.payloadOk, Instr.excludedOk, Config.lit] using hwf
    rw [encode, decode, decodeIrq_of_length hlit _ _ hlen, hlit]
    rfl
  | irqNoise flag rest =>
    have hlen : rest.length = 23 := by
      simpa [Instr.WellFormed, Instr.payloadOk, Instr.excludedOk, Config.lit] using hwf
    rw [encode, decode, decodeIrq_of_length hlit _ _ hlen, hlit]
    rfl
  | irqCalib tail =>
    have hlen : tail.length = 24 := by
      simpa [Instr.WellFormed, Instr.payloadOk, Instr.excludedOk, Config.lit] using hwf
    rw [encode, hlit]
    exact decode_irq_payload hlit _ hlen (by decide) (by decide)
  | irqHello tail =>
    have hlen : tail.length = 24 := by
      simpa [Instr.WellFormed, Instr.payloadOk, Instr.excludedOk, Config.lit] using hwf
    rw [encode, hlit]
    exact decode_irq_payload hlit _ hlen (by decide) (by decide)
  | irqOther op tail =>
    obtain ⟨hreport, hnoise, hcalib, hhello⟩ := Dispatcher.irqOther_opcode hwf
    have hlen : tail.length = 24 := by
      simpa [Instr.payloadOk, Config.lit] using (Bool.and_eq_true_iff.mp hwf).1
    rw [encode, decode_irq_payload hlit op hlen hreport hnoise, if_neg hcalib, if_neg hhello]
  | _ => rfl

/-! ## What decodes -/

theorem decodeSent_ok {p : Params} {f : List Byte} {i : Instr} (h : decodeSent p f = .ok i) :
    ∃ op : UnitOp, i = op.instr ∧ op.frame p = f := by
  unfold decodeSent at h
  split at h
  · next op hfind =>
    cases h
    exact ⟨op, rfl, by simpa using List.find?_some hfind⟩
  · cases h

/-- Four bytes, by the match of the decoders of R85 and R86. -/
theorem decodeReply_ok {p : Params} {f : List Byte} {i : Instr} (h : decodeReply p f = .ok i) :
    ∃ m r1 r2 r3, f = [m, r1, r2, r3] := by
  unfold decodeReply at h
  split at h
  · next m r1 r2 r3 => exact ⟨m, r1, r2, r3, rfl⟩
  · cases h

theorem decodeHello_ok {p : Params} {f : List Byte} {i : Instr} (h : decodeHello p f = .ok i) :
    ∃ b0 b1 b2 b3, f = [b0, b1, b2, b3] := by
  unfold decodeHello at h
  split at h
  · next b0 b1 b2 b3 => exact ⟨b0, b1, b2, b3, rfl⟩
  · cases h

theorem decodeIrq_ok {p : Params} (hlit : p.lit = Config.lit) {f : List Byte} {i : Instr}
    (h : decodeIrq p f = .ok i) : ∃ op b1 rest, f = op :: b1 :: rest ∧ rest.length = 23 := by
  match f with
  | [] => cases h
  | [_] => cases h
  | op :: b1 :: rest =>
    by_cases hlen : rest.length = 23
    · exact ⟨op, b1, rest, rfl, hlen⟩
    · rw [decodeIrq_wrongLength hlit op b1 hlen] at h
      cases h

theorem encode_decodeReply {p : Params} (hlit : p.lit = Config.lit) {f : List Byte} {i : Instr}
    (h : decodeReply p f = .ok i) : i.WellFormed = true ∧ encode p i = .reply f := by
  obtain ⟨m, r1, r2, r3, rfl⟩ := decodeReply_ok h
  rw [decodeReply_of_marker hlit] at h
  cases h
  by_cases hm : m = 0x52
  · rw [if_pos hm, encode, hlit, hm]
    exact ⟨rfl, rfl⟩
  · rw [if_neg hm]
    exact ⟨by simpa [Instr.WellFormed, Instr.payloadOk, Instr.excludedOk, Config.lit] using hm, rfl⟩

theorem encode_decodeHello {p : Params} (hlit : p.lit = Config.lit) {f : List Byte} {i : Instr}
    (h : decodeHello p f = .ok i) : i.WellFormed = true ∧ encode p i = .hello f := by
  obtain ⟨b0, b1, b2, b3, rfl⟩ := decodeHello_ok h
  rw [decodeHello_of_bytes hlit] at h
  cases h
  by_cases hb : [b0, b1, b2, b3] = [0x55, 0x55, 0x55, 0x55]
  · rw [if_pos hb, encode, hlit, hb]
    exact ⟨rfl, rfl⟩
  · rw [if_neg hb]
    refine ⟨?_, rfl⟩
    simpa [Instr.WellFormed, Instr.payloadOk, Instr.excludedOk, Config.lit, List.replicate] using hb

theorem encode_decodeIrq {p : Params} (hlit : p.lit = Config.lit) {f : List Byte} {i : Instr}
    (h : decodeIrq p f = .ok i) : i.WellFormed = true ∧ encode p i = .irq f := by
  obtain ⟨op, b1, rest, rfl, hlen⟩ := decodeIrq_ok hlit h
  rw [decodeIrq_of_length hlit op b1 hlen] at h
  cases h
  split_ifs with hreport hnoise hcalib hhello
  · rw [encode, hlit, hreport]
    exact ⟨by simp [Instr.WellFormed, Instr.payloadOk, Instr.excludedOk, Config.lit, hlen], rfl⟩
  · rw [encode, hlit, hnoise]
    exact ⟨by simp [Instr.WellFormed, Instr.payloadOk, Instr.excludedOk, Config.lit, hlen], rfl⟩
  · rw [encode, hlit, hcalib]
    exact ⟨by simp [Instr.WellFormed, Instr.payloadOk, Instr.excludedOk, Config.lit, hlen], rfl⟩
  · rw [encode, hlit, hhello]
    exact ⟨by simp [Instr.WellFormed, Instr.payloadOk, Instr.excludedOk, Config.lit, hlen], rfl⟩
  · refine ⟨?_, rfl⟩
    simpa [Instr.WellFormed, Instr.payloadOk, Instr.excludedOk, Config.lit, hlen, and_assoc]
      using And.intro hreport (And.intro hnoise (And.intro hcalib hhello))

/-- The seven request codes beside ATTACH's (R92). -/
theorem nonzero_code : ∀ {code : BitVec 3}, code ≠ 0 →
    code = 1 ∨ code = 2 ∨ code = 3 ∨ code = 4 ∨ code = 5 ∨ code = 6 ∨ code = 7 := by decide

theorem encode_decodeRequest (p : Params) {q : HostReq} (harg : q.code ≠ 0 → q.arg = none) :
    (decodeRequest q).WellFormed = true ∧ encode p (decodeRequest q) = .request q := by
  obtain ⟨code, arg⟩ := q
  by_cases hcode : code = 0
  · subst hcode
    exact ⟨rfl, rfl⟩
  · obtain rfl : arg = none := harg hcode
    obtain rfl | rfl | rfl | rfl | rfl | rfl | rfl := nonzero_code hcode <;> exact ⟨rfl, rfl⟩

/-- Settles O2: the port tells which decoder accepted the bits, and each one's inverse gives them back. -/
theorem encodeDecode : Obligations.EncodeDecode := by
  intro p w i hlit hdecode harg
  cases w with
  | sent f =>
    obtain ⟨op, rfl, hframe⟩ := decodeSent_ok hdecode
    exact ⟨wellFormed_command op, by rw [encode_command, hframe]⟩
  | reply f => exact encode_decodeReply hlit hdecode
  | hello f => exact encode_decodeHello hlit hdecode
  | irq f => exact encode_decodeIrq hlit hdecode
  | request q =>
    cases hdecode
    exact encode_decodeRequest p (harg q rfl)
  | line =>
    cases hdecode
    exact ⟨rfl, rfl⟩

/-- Settles O3: each word by the decoder of its port. -/
theorem specWords : Obligations.SpecWords :=
  ⟨rfl, rfl, rfl, rfl, rfl, rfl, rfl, rfl, rfl, rfl, rfl⟩

theorem tenFrames_eq : tenFrames = UnitOp.all.map (UnitOp.frame {}) := by decide

theorem frame_mem_tenFrames (op : UnitOp) : op.frame {} ∈ tenFrames := by
  rw [tenFrames_eq]
  exact List.mem_map_of_mem (mem_all op)

/-- R94 a: the decoder of chip-bound frames rejects exactly what is none of the ten frames. -/
theorem decode_sent_rejects_iff (f : List Byte) : decode {} (.sent f) = .error .notSentByTcmt ↔ f ∉ tenFrames := by
  constructor
  · intro h hmem
    rw [tenFrames_eq] at hmem
    obtain ⟨op, -, rfl⟩ := List.mem_map.mp hmem
    obtain ⟨o, hdecode, -⟩ := decode_frame {} op
    rw [hdecode] at h
    cases h
  · intro hmem
    have hnone : UnitOp.all.find? (fun op => op.frame {} == f) = none := by
      rw [List.find?_eq_none]
      rintro op - hframe
      exact hmem (beq_iff_eq.mp hframe ▸ frame_mem_tenFrames op)
    rw [decode, decodeSent, hnone]

end Sys2Proof.Proofs.Encoding
end

/-! One tick of the sequencer, said once: what a step of a step list, a sub-step of a unit operation and an answer may
leave behind, whatever the state (10_state.md R21). -/

section
namespace Sys2Proof.Proofs.Ticks

open Sys2Proof Sys2Proof.Machine Sys2Proof.Safety

/-! ## What a step writes on its way -/

/-- `u` is `s` after a step's own register writes and diagnostics: nothing of the program counter, the calls, the other
agents or the clock has moved, the latch is not set, and a fault is only raised. -/
structure Noted (s u : State) : Prop where
  par : u.par = s.par
  step : u.step = s.step
  unit : u.unit = s.unit
  ur : u.ur = s.ur
  call : u.call = s.call
  hostReq : u.hostReq = s.hostReq
  hostWait : u.hostWait = s.hostWait
  inbox : u.inbox = s.inbox
  clock : u.clock = s.clock
  portLog : u.portLog = s.portLog
  trace : ∃ ds : List Diag, u.trace = s.trace ++ ds.map Event.diag
  irqPend : u.irqPend = true → s.irqPend = true
  fault : u.fault = s.fault ∧ u.faultCause = s.faultCause ∨ u.fault = true ∧ u.faultCause = .normalizerDivZero

/-- Register writes alone. -/
theorem Noted.registers (s : State) (life : Life) (ses : Session) (irqEn : Bool) (res : Resources)
    (report : Option Report) (tx rx : Option (List Byte)) :
    Noted s { s with life := life, ses := ses, irqEn := irqEn, res := res, lastReport := report, tx := tx, rx := rx } :=
  ⟨rfl, rfl, rfl, rfl, rfl, rfl, rfl, rfl, rfl, rfl, ⟨[], (List.append_nil _).symm⟩, id, .inl ⟨rfl, rfl⟩⟩

theorem Noted.refl (s : State) : Noted s s := Noted.registers s ..

theorem Noted.diag {s u : State} (h : Noted s u) (c : DiagCode) (info : DiagInfo) : Noted s (u.diag c info) := by
  obtain ⟨ds, htrace⟩ := h.trace
  refine ⟨h.par, h.step, h.unit, h.ur, h.call, h.hostReq, h.hostWait, h.inbox, h.clock, h.portLog, ?_, h.irqPend,
    h.fault⟩
  exact ⟨ds ++ [{ code := c, op := u.curOp, step := u.stepName, info := info }], by
    rw [List.map_append, ← List.append_assoc, ← htrace]; rfl⟩

/-- The latch is cleared (R33, R240), with any other register. -/
theorem Noted.cleared (s : State) (irqEn : Bool) (rx : Option (List Byte)) :
    Noted s { s with irqEn := irqEn, irqPend := false, rx := rx } :=
  ⟨rfl, rfl, rfl, rfl, rfl, rfl, rfl, rfl, rfl, rfl, ⟨[], (List.append_nil _).symm⟩, nofun, .inl ⟨rfl, rfl⟩⟩

theorem Noted.raised {s u : State} (h : Noted s u) : Noted s (u.raiseFault .normalizerDivZero) :=
  ⟨h.par, h.step, h.unit, h.ur, h.call, h.hostReq, h.hostWait, h.inbox, h.clock, h.portLog, h.trace, h.irqPend,
    .inr ⟨rfl, rfl⟩⟩

/-! ## How far a step stands from the end of its list -/

/-- An upper bound of the step labels still to come, this one among them: it falls from each step to the next and is
no larger on the abort path (R201, R207), and the sub-steps of I6 share it. -/
def rank : Label → Nat
  | .a0 _ => 28 | .a1 _ => 27 | .a2 _ => 26 | .a3 => 25 | .a4 => 24 | .a5 => 23 | .a6 => 22 | .a7 => 21 | .a8 => 20
  | .a9 => 19 | .a10 => 18 | .a11 _ => 17 | .a12 => 16 | .a13 => 15 | .a14 _ => 14 | .a15 => 13 | .a16 => 12
  | .a17 _ => 11 | .a18 => 10 | .a19 => 9 | .a20 => 8
  | .b1 _ _ => 7 | .b2 => 6 | .b3 => 5 | .b4 => 4 | .b5 => 3 | .b6 => 2 | .b7 => 1
  | .s0 => 7 | .s1 => 6 | .s2 => 5 | .s3 => 4 | .s4 => 3 | .s5 => 2 | .s6 => 1
  | .u0 => 10 | .u1 => 9 | .u2 => 8 | .u3 => 7 | .u4 => 6 | .u5 => 5 | .u6 => 4 | .u7 => 3 | .u8 => 2 | .u9 => 1
  | .x0 => 9 | .x1 => 8 | .x2 => 7 | .x3 => 6 | .x4 => 5 | .x5 => 4 | .x6 => 3 | .x7 => 2 | .x8 => 1
  | .f0 => 4 | .f1 => 3 | .f2 _ => 2 | .f3 _ => 1
  | .i1 => 8 | .i2 => 7 | .i3 _ => 6 | .i4 => 5 | .i5 => 4 | .i6 => 3 | .i6e _ _ => 2 | .i7 => 2 | .i8 => 2 | .i9 => 2

theorem rank_pos (l : Label) : 0 < rank l := by cases l <;> simp [rank]

theorem rank_le (l : Label) : rank l ≤ 28 := by cases l <;> simp [rank]

/-- Whether a result stands in the label (F2). -/
def carriesResult : Label → Bool
  | .f2 _ => true
  | _ => false

/-- `l'` may follow `l` in the step list of one operation (R21). -/
def follows (l l' : Label) : Bool :=
  l'.name.op == l.name.op && decide (rank l' < rank l) && !carriesResult l'

theorem follows_iff (l l' : Label) :
    follows l l' = true ↔ l'.name.op = l.name.op ∧ rank l' < rank l ∧ carriesResult l' = false := by
  simp [follows, and_assoc]

/-! ## The moves of a step -/

/-- What a step may do at its start: call a primitive or a unit operation, go on to a later step of the same operation,
or end it. -/
inductive LabelMove (l : Label) (s : State) : State → Prop
  | issue {u : State} {c : Call} (noted : Noted s u) (frame : l = .i4 → c = .busRecv s.par.lit.rptLen)
      (ack : c = .readAndAck → l = .i2) (send : ∀ f, c ≠ .busSend f) : LabelMove l s (u.issue c)
  | enter {u : State} {op : UnitOp} (noted : Noted s u) (caller : l = UnitOp.caller op) :
      LabelMove l s (u.unitEnter op)
  | goto {u : State} {l' : Label} (noted : Noted s u) (later : follows l l' = true) : LabelMove l s (u.goto l')
  | finish {u : State} {r : ResultCode} {v : Option Bool} (noted : Noted s u) : LabelMove l s (u.finish r v)

/-- What a step may do as its unit operation returns: go on to a later step of the same operation, the finger read's
caller with the result (R222). -/
inductive ReturnMove (l : Label) (s : State) : State → Prop
  | goto {u : State} {l' : Label} (noted : Noted s u) (later : follows l l' = true) : ReturnMove l s (u.goto l')
  | finger {r : UnitResult} (at_ : l = .f1) (result : s.ur = some r) : ReturnMove l s (s.goto (.f2 r))

/-- What a step may do with the answer to its primitive: ignore it, go on in the same operation (I6 at its next
sub-step), or end it. -/
inductive AnswerMove (l : Label) (s : State) : State → Prop
  | ignored : AnswerMove l s s
  | goto {u : State} {l' : Label} (noted : Noted s u) (op : l'.name.op = l.name.op) (later : rank l' ≤ rank l)
      (plain : carriesResult l' = false) : AnswerMove l s (u.goto l')
  | finish {u : State} {r : ResultCode} {v : Option Bool} (noted : Noted s u) : AnswerMove l s (u.finish r v)

theorem issue_move {l : Label} {s u : State} {c : Call} (hnoted : Noted s u) (hl : l ≠ .i4) (hack : c ≠ .readAndAck)
    (hsend : ∀ f, c ≠ .busSend f) : LabelMove l s (u.issue c) :=
  .issue hnoted (fun h => absurd h hl) (fun h => absurd h hack) hsend

theorem accept_move {l first : Label} (op : Op) (s : State) (hlater : follows l first = true) :
    LabelMove l s (s.accept op first) := by
  rcases accept_cases op first s with ⟨-, h⟩ | ⟨r, -, h⟩
  · rw [h]; exact .goto (.refl s) hlater
  · rw [h]; exact .finish (.refl s)

theorem releaseBegin_move {l next : Label} {held : Bool} {c : Call} (s : State) (hl : l ≠ .i4)
    (hack : c ≠ .readAndAck) (hsend : ∀ f, c ≠ .busSend f) (hlater : follows l next = true) :
    LabelMove l s (s.releaseBegin held c next) := by
  rcases releaseBegin_cases held c next s with ⟨-, h⟩ | ⟨-, h⟩
  · rw [h]; exact issue_move (.refl s) hl hack hsend
  · rw [h]; exact .goto (.refl s) hlater

theorem intReleaseBegin_move {l next : Label} (s : State) (hl : l ≠ .i4) (hlater : follows l next = true) :
    LabelMove l s (s.intReleaseBegin next) := by
  unfold State.intReleaseBegin
  split
  · exact issue_move (.refl s) hl nofun nofun
  · exact .goto (.refl s) hlater

theorem lastReleaseBegin_move {l next : Label} (s : State) (hl : l ≠ .i4) (hlater : follows l next = true) :
    LabelMove l s (s.lastReleaseBegin next) := by
  unfold State.lastReleaseBegin
  split
  · exact issue_move (.refl s) hl nofun nofun
  · exact .goto (.registers s ..) hlater

theorem checkConfig_move (cfg : Option CfgRecord) (s : State) : LabelMove (.a1 cfg) s (s.checkConfig cfg) := by
  unfold State.checkConfig
  split
  · exact .finish ((Noted.refl s).diag ..)
  · exact .goto (.refl s) rfl

theorem configureBegin_move {s t : State} (h : s.configureBegin = .ok t) : LabelMove .a5 s t := by
  obtain ⟨m, -, rfl⟩ := readReg_map_ok.mp h
  exact issue_move (.refl s) nofun nofun nofun

theorem registerBegin_move {s t : State} (h : s.registerBegin = .ok t) : LabelMove .a18 s t := by
  obtain ⟨x, -, h⟩ := readReg_bind_ok.mp h
  obtain ⟨y, -, rfl⟩ := readReg_map_ok.mp h
  exact issue_move (.refl s) nofun nofun nofun

theorem checkAck_move (acked : Bool) (s : State) : LabelMove (.i3 acked) s (s.checkAck acked) := by
  unfold State.checkAck
  split
  · exact .finish ((Noted.refl s).diag ..)
  · exact .goto (.refl s) rfl

theorem routeOpcode_move {s t : State} (h : s.routeOpcode = .ok t) : LabelMove .i5 s t := by
  obtain ⟨f, -, rfl⟩ := readReg_map_ok.mp h
  split_ifs
  · exact .goto (.refl s) rfl
  · exact .goto (.refl s) rfl
  · exact .goto (.refl s) rfl
  · exact .goto (.refl s) rfl
  · exact .finish (.refl s)

theorem map_ok {α β ε : Type} {x : Except ε α} {f : α → β} {b : β} (h : x.map f = .ok b) :
    ∃ a, x = .ok a ∧ f a = b := by
  cases x with
  | error e => cases h
  | ok a => exact ⟨a, rfl, Except.ok.inj h⟩

/-- I6 (R242): the frame is recorded, and then the events are computed, or the fault is raised. -/
theorem beginReport_cases {s t : State} (h : s.beginReport = .ok t) :
    ∃ report, (∃ evs, t = ({ s with lastReport := some report } : State).goto (.i6e 1 evs)) ∨
      t = ({ s with lastReport := some report } : State).faultReport := by
  obtain ⟨f, -, h⟩ := readReg_bind_ok.mp h
  obtain ⟨e, -, rfl⟩ := map_ok h
  refine ⟨decodeReport s.par f, ?_⟩
  cases e with
  | divZero => exact .inr rfl
  | ok evs => exact .inl ⟨evs, rfl⟩

theorem beginReport_move {s t : State} (h : s.beginReport = .ok t) : LabelMove .i6 s t := by
  obtain ⟨report, ⟨evs, rfl⟩ | rfl⟩ := beginReport_cases h
  · exact .goto (.registers s ..) rfl
  · exact .finish ((Noted.raised (.registers s ..)).diag ..)

theorem emitEvents_move (j : Nat) (evs : List HostEvent) (s : State) :
    LabelMove (.i6e j evs) s (s.emitEvents evs) := by
  unfold State.emitEvents
  split
  · exact .finish (.refl s)
  · exact issue_move (.refl s) nofun nofun nofun

theorem logNoise_move {s t : State} (h : s.logNoise = .ok t) : LabelMove .i7 s t := by
  obtain ⟨f, -, rfl⟩ := readReg_map_ok.mp h
  exact .finish ((Noted.refl s).diag ..)

/-- F2 goes on or ends, unless the result is a value of another kind, which stays. -/
theorem fingerResult_move (r : UnitResult) (s : State) :
    (s.fingerResult r = s ∧ ∃ v, r = .ok v ∧ ∀ b, v ≠ .flag b) ∨ LabelMove (.f2 r) s (s.fingerResult r) := by
  rcases r with v | e
  · cases v with
    | flag b => exact .inr (.goto (.refl s) rfl)
    | _ => exact .inl ⟨rfl, _, rfl, nofun⟩
  · exact .inr (.finish (.refl s))

/-! ## Every step label -/

/-- The result at F2 is no flag: the value that FINGER_QUERY's read never returns (log 20). -/
def Misread (l : Label) : Prop := ∃ v, l = .f2 (.ok v) ∧ ∀ b, v ≠ .flag b

/-- At its start a step makes one of its moves, F2 when its result is one that the finger read returns. -/
theorem labelBegin_move {l : Label} {s t : State} (h : labelBegin l s = .ok t) :
    (t = s ∧ Misread l) ∨ LabelMove l s t := by
  cases l with
  | f2 r =>
    cases h
    rcases fingerResult_move r s with ⟨hstay, v, rfl, hv⟩ | hmove
    · exact .inl ⟨hstay, v, rfl, hv⟩
    · exact .inr hmove
  | a5 => exact .inr (configureBegin_move h)
  | a18 => exact .inr (registerBegin_move h)
  | i5 => exact .inr (routeOpcode_move h)
  | i6 => exact .inr (beginReport_move h)
  | i7 => exact .inr (logNoise_move h)
  | a0 cfg => cases h; exact .inr (accept_move _ s rfl)
  | a1 cfg => cases h; exact .inr (checkConfig_move cfg s)
  | x1 =>
    cases h
    split
    · exact .inr (.finish (.refl s))
    · exact .inr (.goto (.refl s) rfl)
  | s0 | u0 | x0 | f0 => cases h; exact .inr (accept_move _ s rfl)
  | b2 | b3 | b4 | x3 | x4 | x5 => cases h; exact .inr (releaseBegin_move s nofun nofun nofun rfl)
  | b5 | x6 => cases h; exact .inr (intReleaseBegin_move s nofun rfl)
  | b6 | x7 => cases h; exact .inr (lastReleaseBegin_move s nofun rfl)
  | b1 at_ cause => cases h; exact .inr (.goto ((Noted.cleared s false s.rx).diag ..) rfl)
  | s1 => cases h; exact .inr (.goto (.cleared s false s.rx) rfl)
  | x2 => cases h; exact .inr (.goto (.cleared s false s.rx) rfl)
  | i1 => cases h; exact .inr (.goto (.cleared s s.irqEn none) rfl)
  | i2 => cases h; exact .inr (.issue (.refl s) nofun (fun _ => rfl) nofun)
  | i3 acked => cases h; exact .inr (checkAck_move acked s)
  | i4 => cases h; exact .inr (.issue (.refl s) (fun _ => rfl) nofun nofun)
  | i6e j evs => cases h; exact .inr (emitEvents_move j evs s)
  | i8 | i9 => cases h; exact .inr (.finish ((Noted.refl s).diag ..))
  | a3 | a4 | a6 | a7 | a8 | a9 | a12 | a15 | s3 | u2 | u5 =>
    cases h; exact .inr (issue_move (.registers s ..) nofun nofun nofun)
  | a10 => cases h; exact .inr (.enter (op := .fwVerRead) (.registers s ..) rfl)
  | a13 => cases h; exact .inr (.enter (op := .widthRead) (.registers s ..) rfl)
  | a16 => cases h; exact .inr (.enter (op := .heightRead) (.registers s ..) rfl)
  | s2 => cases h; exact .inr (.enter (op := .packetWrite false) (.registers s ..) rfl)
  | s4 => cases h; exact .inr (.enter (op := .powerWrite false) (.registers s ..) rfl)
  | u1 => cases h; exact .inr (.enter (op := .powerWrite true) (.registers s ..) rfl)
  | u3 => cases h; exact .inr (.enter (op := .powerRead) (.registers s ..) rfl)
  | u4 => cases h; exact .inr (.enter (op := .packetWrite true) (.registers s ..) rfl)
  | u6 => cases h; exact .inr (.enter (op := .packetRead) (.registers s ..) rfl)
  | f1 => cases h; exact .inr (.enter (op := .fingerRead) (.registers s ..) rfl)
  | a2 c => cases h; exact .inr (.goto (.registers s ..) rfl)
  | a11 v | a14 v | a17 v => cases h; exact .inr (.goto (.registers s ..) rfl)
  | a19 | s5 | u7 | u8 => cases h; exact .inr (.goto (.registers s ..) rfl)
  | a20 | b7 | s6 | u9 | x8 => cases h; exact .inr (.finish (.registers s ..))
  | f3 v => cases h; exact .inr (.finish (.registers s ..))

/-! ## Results of unit operations -/

/-- The unit operation that a step calls: a left inverse of `UnitOp.caller`. -/
def calledAt : Label → Option UnitOp
  | .a10 => some .fwVerRead
  | .u3 => some .powerRead
  | .u1 => some (.powerWrite true)
  | .s4 => some (.powerWrite false)
  | .f1 => some .fingerRead
  | .u4 => some (.packetWrite true)
  | .s2 => some (.packetWrite false)
  | .u6 => some .packetRead
  | .a13 => some .widthRead
  | .a16 => some .heightRead
  | _ => none

theorem calledAt_caller (op : UnitOp) : calledAt (UnitOp.caller op) = some op := by
  cases op with
  | powerWrite on => cases on <;> rfl
  | packetWrite on => cases on <;> rfl
  | _ => rfl

/-- No two unit operations are called by one step. -/
theorem caller_injective {o op : UnitOp} (h : UnitOp.caller o = UnitOp.caller op) : o = op := by
  have hsome := congrArg calledAt h
  rw [calledAt_caller, calledAt_caller] at hsome
  exact Option.some.inj hsome

theorem caller_of_calledAt {l : Label} {op : UnitOp} (h : calledAt l = some op) : l = UnitOp.caller op := by
  cases l <;> cases h <;> rfl

/-- The result is of another kind than its unit operation returns (log 20). -/
def Mismatched (op : UnitOp) (r : UnitResult) : Prop := ∃ v, r = .ok v ∧ ¬ReturnsKind op v

theorem versionReturned_move (r : UnitResult) (s : State) :
    (s.versionReturned r = s ∧ Mismatched .fwVerRead r) ∨ ReturnMove .a10 s (s.versionReturned r) := by
  rcases r with v | e
  · cases v with
    | fw v => exact .inr (.goto (.refl s) rfl)
    | _ => exact .inl ⟨rfl, _, rfl, nofun⟩
  · exact .inr (.goto (.refl s) rfl)

theorem dimensionReturned_move {op : UnitOp} {at_ : StepName} {next : BitVec 12 → Label} (r : UnitResult) (s : State)
    (hkind : ∀ v, ReturnsKind op v → ∃ x, v = .dim x) (hnext : ∀ v, follows (UnitOp.caller op) (next v) = true)
    (habort : ∀ c, follows (UnitOp.caller op) (.b1 at_ c) = true) :
    (s.dimensionReturned at_ next r = s ∧ Mismatched op r) ∨
      ReturnMove (UnitOp.caller op) s (s.dimensionReturned at_ next r) := by
  rcases r with v | e
  · cases v with
    | dim v => exact .inr (.goto (.refl s) (hnext v))
    | _ => exact .inl ⟨rfl, _, rfl, fun h => nomatch hkind _ h⟩
  · exact .inr (.goto (.refl s) (habort _))

theorem writeReturned_move {l next : Label} {s ok : State} {warning : DiagCode} (r : UnitResult)
    (hok : Noted s ok) (hnext : follows l next = true) : ReturnMove l s (s.writeReturned ok warning next r) := by
  rcases r with v | e
  · exact .goto hok hnext
  · exact .goto ((Noted.refl s).diag ..) hnext

theorem powerReturned_move (r : UnitResult) (s : State) :
    (s.powerReturned r = s ∧ Mismatched .powerRead r) ∨ ReturnMove .u3 s (s.powerReturned r) := by
  rcases r with v | e
  · cases v with
    | flag b =>
      cases b
      · exact .inr (.goto ((Noted.registers s ..).diag ..) rfl)
      · exact .inr (.goto (.registers s ..) rfl)
    | _ => exact .inl ⟨rfl, _, rfl, nofun⟩
  · exact .inr (.goto ((Noted.refl s).diag ..) rfl)

theorem streamReturned_move (r : UnitResult) (s : State) :
    (s.streamReturned r = s ∧ Mismatched .packetRead r) ∨ ReturnMove .u6 s (s.streamReturned r) := by
  rcases r with v | e
  · cases v with
    | stream b =>
      refine .inr ?_
      unfold State.streamReturned State.streamReadBack
      dsimp only
      split
      · exact .goto (.registers s ..) rfl
      · exact .goto ((Noted.registers s ..).diag ..) rfl
    | _ => exact .inl ⟨rfl, _, rfl, nofun⟩
  · exact .inr (.goto ((Noted.refl s).diag ..) rfl)

/-- A step that calls no unit operation goes on as at its start. -/
theorem labelReturn_of_no_call {l : Label} (h : calledAt l = none) (r : UnitResult) (s : State) :
    labelReturn l r s = labelBegin l s := by
  cases l <;> first | rfl | cases h

/-- As its unit operation returns a step goes on, when the result is of the kind that it reads. -/
theorem labelReturn_move {op : UnitOp} {r : UnitResult} {s t : State} (hur : s.ur = some r)
    (h : labelReturn (UnitOp.caller op) r s = .ok t) :
    (t = s ∧ Mismatched op r) ∨ ReturnMove (UnitOp.caller op) s t := by
  cases op with
  | fwVerRead => cases h; exact versionReturned_move r s
  | powerRead => cases h; exact powerReturned_move r s
  | powerWrite on => cases on <;> cases h <;> exact .inr (writeReturned_move r (.registers s ..) rfl)
  | fingerRead => cases h; exact .inr (.finger rfl hur)
  | packetWrite on => cases on <;> cases h <;> exact .inr (writeReturned_move r (.registers s ..) rfl)
  | packetRead => cases h; exact streamReturned_move r s
  | widthRead =>
    cases h
    exact dimensionReturned_move (op := .widthRead) r s (fun _ => id) (fun _ => rfl) fun _ => rfl
  | heightRead =>
    cases h
    exact dimensionReturned_move (op := .heightRead) r s (fun _ => id) (fun _ => rfl) fun _ => rfl

/-! ## Answers to a step's primitive -/

theorem onDone_move {l : Label} {r : Reply} {s t : State} (h : AnswerMove l s t) : AnswerMove l s (r.onDone s t) := by
  cases r <;> first | exact .ignored | exact h

theorem helloAnswered_move (count : Int) (bytes : List Byte) (s : State) :
    AnswerMove .a9 s (s.helloAnswered count bytes) := by
  unfold State.helloAnswered State.helloFailed State.helloReceived
  dsimp only
  split_ifs
  · exact .goto (.refl s) rfl (Nat.le_of_ble_eq_true rfl) rfl
  · exact .goto ((Noted.refl s).diag ..) rfl (by decide) rfl
  · exact .goto (.registers s ..) rfl (by decide) rfl
  · exact .goto ((Noted.registers s ..).diag ..) rfl (by decide) rfl

theorem frameReceived_move (count : Int) (bytes : List Byte) (s : State) :
    AnswerMove .i4 s (s.frameReceived count bytes) := by
  unfold State.frameReceived
  split_ifs
  · exact .finish ((Noted.refl s).diag ..)
  · exact .goto (.registers s ..) rfl (by decide) rfl

theorem eventEmitted_move (j : Nat) (evs : List HostEvent) (s : State) :
    AnswerMove (.i6e j evs) s (s.eventEmitted j evs) := by
  rcases eventEmitted_cases j evs s with ⟨-, h⟩ | ⟨e, rest, -, h⟩
  · rw [h]; exact .finish (.refl s)
  · rw [h]; exact .goto (.refl s) rfl le_rfl rfl

/-- Whatever the answer, a step makes one of its answer moves. -/
theorem labelAnswer_move (l : Label) (r : Reply) (s : State) : AnswerMove l s (labelAnswer l r s) := by
  cases l with
  | a3 =>
    cases r with
    | pin h => cases h <;> exact .goto (.registers s ..) rfl (by decide) rfl
    | _ => exact .ignored
  | a4 =>
    cases r with
    | pin h => cases h <;> exact .goto (.registers s ..) rfl (by decide) rfl
    | _ => exact .ignored
  | a6 =>
    cases r with
    | opened ok => cases ok <;> exact .goto (.registers s ..) rfl (by decide) rfl
    | _ => exact .ignored
  | a18 =>
    cases r with
    | registered ok => cases ok <;> exact .goto (.registers s ..) rfl (by decide) rfl
    | _ => exact .ignored
  | a9 =>
    cases r with
    | received count bytes => exact helloAnswered_move count bytes s
    | _ => exact .ignored
  | i2 =>
    cases r with
    | acked a => exact .goto (.refl s) rfl (Nat.le_succ _) rfl
    | _ => exact .ignored
  | i4 =>
    cases r with
    | received count bytes => exact frameReceived_move count bytes s
    | _ => exact .ignored
  | i6e j evs => exact onDone_move (eventEmitted_move j evs s)
  | a5 | b2 | b3 | b4 | b5 | b6 | x3 | x4 | x5 | x6 | x7 =>
    exact onDone_move (.goto (.registers s ..) rfl (by decide) rfl)
  | a7 | a8 | a12 | a15 | s3 | u2 | u5 => exact onDone_move (.goto (.refl s) rfl (by decide) rfl)
  | _ => exact .ignored

/-! ## The moves of a unit operation -/

/-- `s` with other frame buffers: the only registers that a unit operation writes (41_message_catalog.md R130). -/
def buffers (tx rx : Option (List Byte)) (s : State) : State := { s with tx := tx, rx := rx }

/-- What a unit operation does while no call of it is outstanding: it calls the bus or the timer, or it returns. -/
inductive UnitMove (op : UnitOp) (s : State) : State → Prop
  | issue {tx rx : Option (List Byte)} {c : Call} (keeps : s.rx.isSome → rx.isSome)
      (send : ∀ f, c = .busSend f → f = op.frame s.par)
      (ack : c ≠ .readAndAck) : UnitMove op s ((buffers tx rx s).issue c)
  | ret {r : UnitResult} (kind : ∀ v, r = .ok v → ReturnsKind op v) : UnitMove op s (s.unitReturn r)

/-- What a unit operation does with an answer: it ignores it, goes on, at T4 with the frame in RX, or returns. -/
inductive UnitAnswerMove (op : UnitOp) (s : State) : State → Prop
  | ignored : UnitAnswerMove op s s
  | goto {tx rx : Option (List Byte)} {t : TStep} (received : t = .t4 → rx.isSome) :
      UnitAnswerMove op s ((buffers tx rx s).unitGoto op t)
  | ret {tx rx : Option (List Byte)} {r : UnitResult} (kind : ∀ v, r = .ok v → ReturnsKind op v) :
      UnitAnswerMove op s ((buffers tx rx s).unitReturn r)

theorem unitValue_kind (p : Params) (op : UnitOp) (f : List Byte) : ReturnsKind op (unitValue p op f) := by
  cases op with
  | powerWrite | packetWrite => rfl
  | _ => exact ⟨_, rfl⟩

theorem unitStep_move {op : UnitOp} {u : TStep} {s t : State} (h : s.unitStep op u = .ok t) : UnitMove op s t := by
  cases u with
  | t1 => cases h; exact .issue (rx := s.rx) id (fun f hf => (Call.busSend.inj hf).symm) nofun
  | t2 => cases h; exact .issue (tx := s.tx) (rx := s.rx) id nofun nofun
  | t3 => cases h; exact .issue (tx := s.tx) (rx := s.rx) id nofun nofun
  | t4 =>
    obtain ⟨f, -, rfl⟩ := readReg_map_ok.mp h
    split_ifs
    · exact .ret nofun
    · refine .ret fun v hv => ?_
      cases hv
      exact unitValue_kind s.par op f

theorem unitAnswer_move (op : UnitOp) (u : TStep) (r : Reply) (s : State) :
    UnitAnswerMove op s (s.unitAnswer op u r) := by
  cases u with
  | t1 =>
    cases r with
    | sent c =>
      rcases sendEnd_cases op c s with ⟨-, h⟩ | ⟨-, hwrite, -, h⟩ | ⟨-, -, h⟩
      · rw [State.unitAnswer, h]; exact .ret nofun
      · rw [State.unitAnswer, h]
        refine .ret fun v hv => ?_
        cases hv
        cases op <;> first | rfl | cases hwrite
      · rw [State.unitAnswer, h]; exact .goto nofun
    | _ => exact .ignored
  | t2 =>
    cases r with
    | done => exact .goto (tx := s.tx) (rx := s.rx) nofun
    | _ => exact .ignored
  | t3 =>
    cases r with
    | received c b =>
      rcases recvEnd_cases op c b s with ⟨-, h⟩ | ⟨-, h⟩
      · rw [State.unitAnswer, h]; exact .ret (tx := s.tx) (rx := s.rx) nofun
      · rw [State.unitAnswer, h]; exact .goto fun _ => rfl
    | _ => exact .ignored
  | t4 => cases r <;> exact .ignored

/-! ## The moves of a tick -/

/-- `s` with the next move taken from the other agents' moves. -/
def taken (rest : List Input) (s : State) : State := { s with inbox := rest }

/-- Everything that one tick can do. -/
inductive TickMove (s : State) : State → Prop
  | dropped {c : Call} {i : Input} {rest : List Input} (call : s.call = some c) (next : s.inbox = i :: rest) :
      TickMove s (taken rest s)
  | unitAnswered {c : Call} {d : Nat} {r : Reply} {rest : List Input} {op : UnitOp} {u : TStep} {t : State}
      (call : s.call = some c) (next : s.inbox = .reply d r :: rest) (fits : c.fits r = true)
      (unit : s.unit = some (op, u)) (move : UnitAnswerMove op ((taken rest s).answered c d r) t) : TickMove s t
  | labelAnswered {c : Call} {d : Nat} {r : Reply} {rest : List Input} {l : Label}
      (call : s.call = some c) (next : s.inbox = .reply d r :: rest) (fits : c.fits r = true)
      (unit : s.unit = none) (step : s.step = some l) :
      TickMove s (labelAnswer l r ((taken rest s).answered c d r))
  | idleAnswered {c : Call} {d : Nat} {r : Reply} {rest : List Input} (call : s.call = some c)
      (next : s.inbox = .reply d r :: rest) (unit : s.unit = none) (step : s.step = none) :
      TickMove s ((taken rest s).answered c d r)
  | unitStepped {op : UnitOp} {u : TStep} {t : State} (call : s.call = none) (unit : s.unit = some (op, u))
      (move : UnitMove op s.popTurn t) : TickMove s t
  | returned {l : Label} {r : UnitResult} {t : State} (call : s.call = none) (unit : s.unit = none)
      (step : s.step = some l) (ur : s.ur = some r) (move : labelReturn l r s.popTurn = .ok t) : TickMove s t
  | begun {l : Label} {t : State} (call : s.call = none) (unit : s.unit = none) (step : s.step = some l)
      (ur : s.ur = none) (move : labelBegin l s.popTurn = .ok t) : TickMove s t

theorem tick_move {s t : State} (h : tick s = .moved t) : TickMove s t := by
  obtain ⟨-, ⟨c, d, r, rest, hcall, hnext, hfits, rfl⟩ | ⟨c, i, rest, hcall, hnext, rfl⟩ | ⟨hcall, hadvance⟩⟩ :=
    tick_moved_cases h
  · change TickMove s ((taken rest s).takeAnswer c d r)
    cases hunit : s.unit with
    | some ou =>
      obtain ⟨op, u⟩ := ou
      rw [takeAnswer_unit (s := taken rest s) hunit]
      exact .unitAnswered hcall hnext hfits hunit (unitAnswer_move ..)
    | none =>
      cases hstep : s.step with
      | some l =>
        rw [takeAnswer_label (s := taken rest s) hunit hstep]
        exact .labelAnswered hcall hnext hfits hunit hstep
      | none =>
        have hidle : (taken rest s).takeAnswer c d r = (taken rest s).answered c d r := by
          simp [State.takeAnswer, hunit, hstep, taken]
        rw [hidle]
        exact .idleAnswered hcall hnext hunit hstep
  · exact .dropped hcall hnext
  · rcases advance_cases hadvance with ⟨op, u, hunit, hmove⟩ | ⟨l, r, hunit, hstep, hur, hmove⟩ |
      ⟨l, hunit, hstep, hur, hmove⟩
    · exact .unitStepped hcall (by simpa using hunit) (unitStep_move hmove.symm)
    · exact .returned hcall (by simpa using hunit) (by simpa using hstep) (by simpa using hur) hmove.symm
    · exact .begun hcall (by simpa using hunit) (by simpa using hstep) (by simpa using hur) hmove.symm

end Sys2Proof.Proofs.Ticks
end

/-! What every tick, and so every run, does to the trace, the clock, the calls, the request port and the fault
(10_state.md R35, 20_memory.md R67, 70_reset_and_hazards.md R300). -/

section
namespace Sys2Proof.Proofs.Sequencer

open Sys2Proof Sys2Proof.Machine Sys2Proof.Safety Sys2Proof.Proofs.Ticks

/-! ## The relation -/

/-- The calls that a sequencer in state `s` may make: a send of a frame of its message catalog, an acknowledge inside a
DISPATCH, and any primitive that is neither. -/
def Calls (s : State) : Call → Prop
  | .busSend f => ∃ op : UnitOp, f = op.frame s.par
  | .readAndAck => ∃ l, s.step = some l ∧ l.name.op = .dispatch
  | _ => True

/-- `t` is reached from `s` by the sequencer alone. -/
structure Progress (s t : State) : Prop where
  par : t.par = s.par
  hostReq : t.hostReq = s.hostReq
  hostWait : t.hostWait = s.hostWait
  portLog : t.portLog = s.portLog
  clock : s.clock ≤ t.clock
  trace : ∃ added, t.trace = s.trace ++ added ∧ ∀ c r, Event.call c r ∈ added → s.call = some c ∨ Calls s c
  call : ∀ c, t.call = some c → s.call = some c ∨ Calls s c
  op : ∀ l, t.step = some l → ∃ l', s.step = some l' ∧ l'.name.op = l.name.op
  irqPend : t.irqPend = true → s.irqPend = true
  fault : t.fault = s.fault ∧ t.faultCause = s.faultCause ∨ t.fault = true ∧ t.faultCause = .normalizerDivZero

theorem calls_of_progress {s t : State} (h : Progress s t) {c : Call} (hc : Calls t c) : Calls s c := by
  cases c with
  | busSend f =>
    obtain ⟨op, hf⟩ := hc
    exact ⟨op, by rw [hf, h.par]⟩
  | readAndAck =>
    obtain ⟨l, hl, hop⟩ := hc
    obtain ⟨l', hl', hop'⟩ := h.op l hl
    exact ⟨l', hl', hop'.trans hop⟩
  | _ => trivial

theorem Progress.refl (s : State) : Progress s s :=
  ⟨rfl, rfl, rfl, rfl, le_rfl, ⟨[], (List.append_nil _).symm, nofun⟩, fun _ h => .inl h, fun l h => ⟨l, h, rfl⟩, id,
    .inl ⟨rfl, rfl⟩⟩

theorem Progress.trans {s t u : State} (h : Progress s t) (h' : Progress t u) : Progress s u where
  par := h'.par.trans h.par
  hostReq := h'.hostReq.trans h.hostReq
  hostWait := h'.hostWait.trans h.hostWait
  portLog := h'.portLog.trans h.portLog
  clock := h.clock.trans h'.clock
  trace := by
    obtain ⟨a, ha, hca⟩ := h.trace
    obtain ⟨b, hb, hcb⟩ := h'.trace
    refine ⟨a ++ b, by rw [hb, ha, List.append_assoc], fun c r hmem => ?_⟩
    rcases List.mem_append.mp hmem with hmem | hmem
    · exact hca c r hmem
    · exact (hcb c r hmem).elim (h.call c) fun hc => .inr (calls_of_progress h hc)
  call c hc := (h'.call c hc).elim (h.call c) fun hc => .inr (calls_of_progress h hc)
  op l hl := by
    obtain ⟨l', hl', hop'⟩ := h'.op l hl
    obtain ⟨l'', hl'', hop''⟩ := h.op l' hl'
    exact ⟨l'', hl'', hop''.trans hop'⟩
  irqPend hp := h.irqPend (h'.irqPend hp)
  fault := by
    rcases h'.fault with ⟨hf', hc'⟩ | hset
    · rcases h.fault with ⟨hf, hc⟩ | ⟨hf, hc⟩
      · exact .inl ⟨hf'.trans hf, hc'.trans hc⟩
      · exact .inr ⟨hf'.trans hf, hc'.trans hc⟩
    · exact .inr hset

/-- A fault that is set stays set (R35). -/
theorem Progress.faulted {s t : State} (h : Progress s t) (hs : s.fault = true) : t.fault = true := by
  rcases h.fault with ⟨hf, -⟩ | ⟨hf, -⟩
  · exact hf.trans hs
  · exact hf

theorem Progress.cause {s t : State} (h : Progress s t) (hs : s.faultCause = .normalizerDivZero) :
    t.faultCause = .normalizerDivZero := by
  rcases h.fault with ⟨-, hc⟩ | ⟨-, hc⟩
  · exact hc.trans hs
  · exact hc

/-! ## A tick makes progress -/

/-- `end(r, v)` (R21): at most one answer to the host is added to the trace. -/
theorem finish_eq (r : ResultCode) (v : Option Bool) (s : State) :
    ∃ added : List Event, s.finish r v = { s with step := none, ur := none, lastResult := r, trace := s.trace ++ added }
      ∧ ∀ c a, Event.call c a ∉ added := by
  by_cases h : s.curOp = .dispatch
  · exact ⟨[], by rw [finish_dispatch h, List.append_nil], nofun⟩
  · refine ⟨[.respond r v], by rw [finish_request h]; rfl, ?_⟩
    rintro c a hmem
    cases List.mem_singleton.mp hmem

theorem noted_progress {s u : State} (h : Noted s u) : Progress s u where
  par := h.par
  hostReq := h.hostReq
  hostWait := h.hostWait
  portLog := h.portLog
  clock := h.clock.ge
  trace := by
    obtain ⟨ds, hds⟩ := h.trace
    refine ⟨ds.map Event.diag, hds, fun c r hmem => ?_⟩
    obtain ⟨d, -, hd⟩ := List.mem_map.mp hmem
    cases hd
  call c hc := .inl (h.call ▸ hc)
  op l hl := ⟨l, h.step ▸ hl, rfl⟩
  irqPend := h.irqPend
  fault := h.fault

theorem progress_finish (r : ResultCode) (v : Option Bool) (s : State) : Progress s (s.finish r v) := by
  obtain ⟨added, hfinish, hcalls⟩ := finish_eq r v s
  rw [hfinish]
  exact ⟨rfl, rfl, rfl, rfl, le_rfl, ⟨added, rfl, fun c a h => absurd h (hcalls c a)⟩, fun _ h => .inl h,
    (fun _ h => nomatch h), id, .inl ⟨rfl, rfl⟩⟩

/-- Going to another step of the operation in flight. -/
theorem progress_goto {s : State} {l l' : Label} (hl : s.step = some l) (hop : l'.name.op = l.name.op) :
    Progress s (s.goto l') :=
  ⟨rfl, rfl, rfl, rfl, le_rfl, ⟨[], (List.append_nil _).symm, nofun⟩, fun _ h => .inl h,
    fun _ h => ⟨l, hl, Option.some.inj h ▸ hop.symm⟩, id, .inl ⟨rfl, rfl⟩⟩

theorem progress_issue {s : State} {c : Call} (h : Calls s c) : Progress s (s.issue c) :=
  ⟨rfl, rfl, rfl, rfl, le_rfl, ⟨[], (List.append_nil _).symm, nofun⟩, fun _ hc => .inr (Option.some.inj hc ▸ h),
    fun l h => ⟨l, h, rfl⟩, id, .inl ⟨rfl, rfl⟩⟩

/-- Only the unit operation, its result, the frame buffers and the inbox change: no register that the relation names. -/
theorem progress_unit (s : State) (unit : Option (UnitOp × TStep)) (ur : Option UnitResult)
    (tx rx : Option (List Byte)) (inbox : List Input) :
    Progress s { s with unit := unit, ur := ur, tx := tx, rx := rx, inbox := inbox } :=
  ⟨rfl, rfl, rfl, rfl, le_rfl, ⟨[], (List.append_nil _).symm, nofun⟩, fun _ h => .inl h, fun l h => ⟨l, h, rfl⟩, id,
    .inl ⟨rfl, rfl⟩⟩

theorem progress_popTurn (s : State) : Progress s s.popTurn := by
  rcases popTurn_cases s with ⟨b, rest, -, h⟩ | ⟨-, h⟩
  · rw [h]; exact progress_unit s s.unit s.ur s.tx s.rx rest
  · rw [h]; exact .refl s

theorem progress_answered {s : State} {c : Call} (h : s.call = some c) (d : Nat) (r : Reply) (rest : List Input) :
    Progress s ((taken rest s).answered c d r) where
  par := rfl
  hostReq := rfl
  hostWait := rfl
  portLog := rfl
  clock := Nat.le_add_right_of_le (Nat.le_add_right _ _)
  trace := by
    refine ⟨[.call c (c.record r)], rfl, fun c' r' hmem => ?_⟩
    cases List.mem_singleton.mp hmem
    exact .inl h
  call := nofun
  op l hl := ⟨l, hl, rfl⟩
  irqPend := id
  fault := .inl ⟨rfl, rfl⟩

theorem calls_of_label {l : Label} {s : State} {c : Call} (hl : s.step = some l) (hack : c = .readAndAck → l = .i2)
    (hsend : ∀ f, c ≠ .busSend f) : Calls s c := by
  cases c with
  | busSend f => exact absurd rfl (hsend f)
  | readAndAck => exact ⟨l, hl, by rw [hack rfl]; rfl⟩
  | _ => trivial

theorem labelMove_progress {l : Label} {s t : State} (hl : s.step = some l) (h : LabelMove l s t) : Progress s t := by
  cases h with
  | issue noted frame ack send =>
    exact (noted_progress noted).trans (progress_issue (calls_of_label (noted.step.trans hl) ack send))
  | @enter u op noted caller =>
    exact (noted_progress noted).trans (progress_unit u (some (op, .t1)) none u.tx u.rx u.inbox)
  | goto noted later =>
    exact (noted_progress noted).trans (progress_goto (noted.step.trans hl) ((follows_iff _ _).mp later).1)
  | finish noted => exact (noted_progress noted).trans (progress_finish ..)

theorem returnMove_progress {l : Label} {s t : State} (hl : s.step = some l) (h : ReturnMove l s t) :
    Progress s t := by
  cases h with
  | goto noted later =>
    exact (noted_progress noted).trans (progress_goto (noted.step.trans hl) ((follows_iff _ _).mp later).1)
  | finger at_ result => exact progress_goto hl (by rw [at_]; rfl)

theorem labelBegin_progress {l : Label} {s t : State} (hl : s.step = some l) (h : labelBegin l s = .ok t) :
    Progress s t := by
  rcases labelBegin_move h with ⟨rfl, -⟩ | hmove
  · exact .refl _
  · exact labelMove_progress hl hmove

theorem labelReturn_progress {l : Label} {r : UnitResult} {s t : State} (hl : s.step = some l) (hur : s.ur = some r)
    (h : labelReturn l r s = .ok t) : Progress s t := by
  cases hcalled : calledAt l with
  | none =>
    rw [labelReturn_of_no_call hcalled] at h
    exact labelBegin_progress hl h
  | some op =>
    cases caller_of_calledAt hcalled
    rcases labelReturn_move hur h with ⟨rfl, -⟩ | hmove
    · exact .refl _
    · exact returnMove_progress hl hmove

theorem answerMove_progress {l : Label} {s t : State} (hl : s.step = some l) (h : AnswerMove l s t) :
    Progress s t := by
  cases h with
  | ignored => exact .refl s
  | goto noted op later plain => exact (noted_progress noted).trans (progress_goto (noted.step.trans hl) op)
  | finish noted => exact (noted_progress noted).trans (progress_finish ..)

theorem unitMove_progress {op : UnitOp} {s t : State} (h : UnitMove op s t) : Progress s t := by
  cases h with
  | @issue tx rx c keeps send ack =>
    refine (progress_unit s s.unit s.ur tx rx s.inbox).trans (progress_issue ?_)
    cases c with
    | busSend f => exact ⟨op, send f rfl⟩
    | readAndAck => exact absurd rfl ack
    | _ => trivial
  | ret kind => exact progress_unit s none _ s.tx s.rx s.inbox

theorem unitAnswerMove_progress {op : UnitOp} {s t : State} (h : UnitAnswerMove op s t) : Progress s t := by
  cases h with
  | ignored => exact .refl s
  | @goto tx rx t received => exact progress_unit s (some (op, t)) s.ur tx rx s.inbox
  | @ret tx rx r kind => exact progress_unit s none (some r) tx rx s.inbox

theorem tick_progress {s t : State} (h : tick s = .moved t) : Progress s t := by
  cases tick_move h with
  | @dropped c i rest call next => exact progress_unit s s.unit s.ur s.tx s.rx rest
  | @unitAnswered c d r rest op u t call next fits unit move =>
    exact (progress_answered call d r rest).trans (unitAnswerMove_progress move)
  | @labelAnswered c d r rest l call next fits unit step =>
    exact (progress_answered call d r rest).trans (answerMove_progress (l := l) step (labelAnswer_move ..))
  | @idleAnswered c d r rest call next unit step => exact progress_answered call d r rest
  | unitStepped call unit move => exact (progress_popTurn s).trans (unitMove_progress move)
  | returned call unit step ur move =>
    exact (progress_popTurn s).trans (labelReturn_progress (by simpa using step) (by simpa using ur) move)
  | begun call unit step ur move =>
    exact (progress_popTurn s).trans (labelBegin_progress (by simpa using step) move)

theorem run_progress {going : State → Bool} {n : Nat} {s t : State} (h : run going n s = .next t) : Progress s t :=
  run_keeps (P := Progress s) (fun _ _ _ hab hs => hs.trans (tick_progress hab)) (.refl s) h

end Sys2Proof.Proofs.Sequencer
end

/-! What one step of the machine can be: a move of another agent, the start of an operation, or ticks of the one in
flight (30_encoding.md R91, 20_memory.md R66). -/

section
namespace Sys2Proof.Proofs.Steps

open Sys2Proof Sys2Proof.Machine Sys2Proof.Safety Sys2Proof.Proofs.Ticks

/-! ## Which instruction runs -/

theorem exec_of_decodeReply {s : State} {f : List Byte} {i : Instr} (h : decodeReply s.par f = .ok i) :
    exec i s = execResponse f s := by
  obtain ⟨m, r1, r2, r3, rfl⟩ := Encoding.decodeReply_ok h
  by_cases hm : m = s.par.lit.mkResponse
  · rw [decodeReply, if_pos hm] at h
    cases h
    rw [hm]
    rfl
  · rw [decodeReply, if_neg hm] at h
    cases h
    rfl

theorem exec_of_decodeHello {s : State} {f : List Byte} {i : Instr} (h : decodeHello s.par f = .ok i) :
    exec i s = execHelloFrame f s := by
  obtain ⟨b0, b1, b2, b3, rfl⟩ := Encoding.decodeHello_ok h
  by_cases hb : [b0, b1, b2, b3] = List.replicate s.par.lit.helloLen s.par.lit.helloByte
  · rw [decodeHello, if_pos hb] at h
    cases h
    rw [hb]
    rfl
  · rw [decodeHello, if_neg hb] at h
    cases h
    rfl

theorem exec_of_decodeIrq {s : State} {f : List Byte} {i : Instr} (h : decodeIrq s.par f = .ok i) :
    exec i s = execIrqFrame f s := by
  unfold decodeIrq at h
  split at h
  · split_ifs at h with hlen hreport hnoise hcalib hhello
    · cases h; rw [hreport]; rfl
    · cases h; rw [hnoise]; rfl
    · cases h; rw [hcalib]; rfl
    · cases h; rw [hhello]; rfl
    · cases h; rfl
  · cases h

/-- The frame at T1 is that of the unit operation in flight, so its instruction goes on with it. -/
theorem exec_of_frame_at_t1 {s : State} {op o : UnitOp} {u : TStep} (hunit : s.unit = some (op, u))
    (hframe : o.frame s.par = op.frame s.par) : exec o.instr s = runUnit s := by
  rw [exec_command, execUnit, hunit]
  exact if_pos hframe.symm

/-- Step 0 of the operation that a request starts (R92, R200). -/
def firstLabel : Instr → Option Label
  | .attach cfg => some (.a0 cfg)
  | .suspend => some .s0
  | .resume => some .u0
  | .detach => some .x0
  | .fingerQuery => some .f0
  | _ => none

/-- A request at rest is taken and its operation runs from step 0. -/
theorem exec_of_firstLabel {i : Instr} {l : Label} {s : State} (hfirst : firstLabel i = some l)
    (hrest : s.atRest = true) : exec i s = runOp ((s.takePort i).takeRequest l) := by
  cases i <;> cases hfirst <;> exact if_pos hrest

theorem exec_reserved {i : Instr} {s : State} (hi : i = .reserved5 ∨ i = .reserved6 ∨ i = .reserved7)
    (hrest : s.atRest = true) : exec i s = .next (s.takePort i).rejectReserved := by
  rcases hi with rfl | rfl | rfl <;> exact if_pos hrest

/-- The codes of R92: an operation's, or a reserved one. -/
theorem decodeRequest_cases (q : HostReq) :
    (∃ l, firstLabel (decodeRequest q) = some l) ∨
      (decodeRequest q = .reserved5 ∨ decodeRequest q = .reserved6 ∨ decodeRequest q = .reserved7) := by
  unfold decodeRequest
  split
  · exact .inl ⟨_, rfl⟩
  · exact .inl ⟨_, rfl⟩
  · exact .inl ⟨_, rfl⟩
  · exact .inl ⟨_, rfl⟩
  · exact .inl ⟨_, rfl⟩
  · exact .inr (.inl rfl)
  · exact .inr (.inr (.inl rfl))
  · exact .inr (.inr (.inr rfl))

/-! ## A received frame is one tick -/

/-- Only the requested bytes of a receive count (R111). -/
theorem unitAnswer_take (op : UnitOp) (u : TStep) (n : Nat) (b : List Byte) (s : State) :
    s.unitAnswer op u (.received n (b.take n)) = s.unitAnswer op u (.received n b) := by
  cases u with
  | t3 =>
    by_cases h : (n : Int) = s.par.lit.cmdLen
    · have hn : n = s.par.lit.cmdLen := Int.ofNat_inj.mp h
      simp [State.unitAnswer, State.recvEnd, hn, List.take_take]
    · simp [State.unitAnswer, State.recvEnd, h]
  | _ => rfl

theorem labelAnswer_take (l : Label) (n : Nat) (b : List Byte) (s : State) :
    labelAnswer l (.received n (b.take n)) s = labelAnswer l (.received n b) s := by
  cases l with
  | a9 =>
    by_cases h : (n : Int) = s.par.lit.helloLen
    · have hn : n = s.par.lit.helloLen := Int.ofNat_inj.mp h
      simp [labelAnswer, Reply.onReceived, State.helloAnswered, State.helloReceived, hn, List.take_take]
    · simp [labelAnswer, Reply.onReceived, State.helloAnswered, h]
  | i4 =>
    by_cases h : (n : Int) = s.par.lit.rptLen
    · have hn : n = s.par.lit.rptLen := Int.ofNat_inj.mp h
      simp [labelAnswer, Reply.onReceived, State.frameReceived, hn, List.take_take]
    · simp [labelAnswer, Reply.onReceived, State.frameReceived, h]
  | _ => rfl

theorem takeAnswer_take (n d : Nat) (b : List Byte) (s : State) :
    s.takeAnswer (.busRecv n) d (.received n (b.take n)) = s.takeAnswer (.busRecv n) d (.received n b) := by
  have hanswered : s.answered (.busRecv n) d (.received n (b.take n)) = s.answered (.busRecv n) d (.received n b) := by
    simp [State.answered, Call.record, List.take_take]
  unfold State.takeAnswer
  rw [hanswered]
  split
  · exact unitAnswer_take ..
  · exact labelAnswer_take ..
  · rfl

/-- The outstanding receive answered with a whole frame: the frame instruction does what the tick does. -/
theorem tick_receive {s : State} {n d : Nat} {b : List Byte} {rest : List Input} (hcall : s.call = some (.busRecv n))
    (hinbox : s.inbox = .reply d (.received n b) :: rest) (hlen : n ≤ b.length) :
    tick s = .moved (s.receiveFrame (b.take n)) := by
  have hframe : (b.take n).length = n := List.length_take_of_le hlen
  have htake : s.takeFrame (b.take n) = (d, taken rest s) := by
    simp [State.takeFrame, hinbox, hframe, taken]
  have hfits : Call.fits (.busRecv n) (.received n b) = true := (fits_received n n b).mpr (.inr hlen)
  have hnext : s.asyncNext = false := by simp [State.asyncNext, hinbox, Input.isAsync]
  rw [State.receiveFrame, htake, hframe]
  simp only [tick, hnext, hcall, hinbox, hfits]
  exact congrArg Tick.moved (takeAnswer_take n d b (taken rest s)).symm

/-! ## Every step -/

/-- The step is a move of another agent, or the taking of a reserved request: no tick of the sequencer. -/
inductive Outside (s : State) : State → Prop
  | hostWrites {q : HostReq} {w : List HostReq} (free : s.hostReq = none) (waiting : s.hostWait = q :: w) :
      Outside s { s with hostReq := some q, hostWait := w }
  | request {q : HostReq} {rest : List Input} (next : s.inbox = .request q :: rest) :
      Outside s ((taken rest s).postRequest q)
  | reset {rest : List Input} (next : s.inbox = .rst :: rest) : Outside s (taken rest s).blockReset
  | portRead {rn : BitVec 5} {draw : BitVec 16} {rest : List Input} (next : s.inbox = .portRead rn draw :: rest) :
      Outside s ((taken rest s).portRead rn draw)
  | asserted {rest : List Input} (next : s.inbox = .irq :: rest) : Outside s (taken rest s).latchIrq
  | stray {rest : List Input} (rest_ : s.atRest = true) : Outside s (taken rest s)
  | reserved {i : Instr} (rest : s.atRest = true) : Outside s (s.takePort i).rejectReserved

/-- An operation starts at rest: a request at its step 0, or the DISPATCH of a latched assertion (R66). -/
inductive Starts (s : State) : State → Prop
  | request {i : Instr} {l : Label} (rest : s.atRest = true) (first : firstLabel i = some l) :
      Starts s ((s.takePort i).takeRequest l)
  | pending (rest : s.atRest = true) (pending : s.dispatchPending = true) :
      Starts s s.arbitrate.2.popTurn.enterDispatch
  | asserted {moves : List Input} (rest : s.atRest = true) (pending : (taken moves s).latchIrq.dispatchPending = true) :
      Starts s (taken moves s).latchIrq.popTurn.enterDispatch

/-- Everything that a step can be. -/
inductive StepIs (s : State) : Host.Outcome State Fault Refusal → Prop
  | outside {t : State} (move : Outside s t) : StepIs s (.next t)
  | starts {t : State} (start : Starts s t) : StepIs s (runOp t)
  | ticks {t : State} {going : State → Bool} {n : Nat} (busy : s.atRest = false) (tick : t = s ∨ tick s = .moved t) :
      StepIs s (run going n t)

theorem irqLine_is {s : State} {rest : List Input} (hinbox : s.inbox = .irq :: rest) :
    StepIs s (exec .irqLine s) := by
  have htake : s.takeAssertion = taken rest s := by simp [State.takeAssertion, hinbox, taken]
  show StepIs s (execIrqLine s)
  unfold execIrqLine
  rw [htake]
  dsimp only
  split
  · next h =>
    simp only [Bool.and_eq_true] at h
    obtain ⟨⟨⟨hpending, hrest⟩, -⟩, -⟩ := h
    exact .starts (.asserted hrest hpending)
  · exact .outside (.asserted hinbox)

theorem request_is {s : State} (hrest : s.atRest = true) (q : HostReq) : StepIs s (exec (decodeRequest q) s) := by
  rcases decodeRequest_cases q with ⟨l, hfirst⟩ | hreserved
  · rw [exec_of_firstLabel hfirst hrest]
    exact .starts (.request hrest hfirst)
  · rw [exec_reserved hreserved hrest]
    exact .outside (.reserved hrest)

/-- One tick of the operation in flight, where the sequencer can move. -/
theorem tickStep_is {s : State} (hbusy : s.atRest = false) : StepIs s (tickStep s) := by
  have hrun : tickStep s = run (fun _ => true) 1 s := by
    unfold tickStep run
    cases tick s <;> rfl
  rw [hrun]
  exact .ticks hbusy (.inl rfl)

theorem fetchFrame_some {s : State} {kind : List Byte → Wire} {n : Nat} {w : Wire}
    (h : s.fetchFrame kind n = some w) :
    ∃ d b rest i, s.inbox = .reply d (.received n b) :: rest ∧ n ≤ b.length ∧ w = kind (b.take n) ∧
      decode s.par w = .ok i := by
  unfold State.fetchFrame at h
  split at h
  · next d c b rest hinbox =>
    split_ifs at h with hlen
    obtain ⟨rfl, hlen⟩ := hlen
    unfold State.decodable at h
    split at h
    · next i hdecode =>
      cases h
      exact ⟨d, b, rest, i, hinbox, hlen, rfl, hdecode⟩
    · cases h
  · cases h

theorem asyncNext_cases (s : State) :
    s.asyncNext = false ∨ ∃ rest, s.inbox = .irq :: rest ∨ s.inbox = .rst :: rest ∨
      (∃ q, s.inbox = .request q :: rest) ∨ ∃ rn draw, s.inbox = .portRead rn draw :: rest := by
  unfold State.asyncNext
  cases h : s.inbox with
  | nil => exact .inl rfl
  | cons i rest =>
    cases i with
    | irq => exact .inr ⟨rest, .inl rfl⟩
    | rst => exact .inr ⟨rest, .inr (.inl rfl)⟩
    | request q => exact .inr ⟨rest, .inr (.inr (.inl ⟨q, rfl⟩))⟩
    | portRead rn draw => exact .inr ⟨rest, .inr (.inr (.inr ⟨rn, draw, rfl⟩))⟩
    | reply d r => exact .inl rfl
    | turn b => exact .inl rfl

section
variable {s : State} (hwrite : s.hostCanWrite = false)
include hwrite

theorem fetch_irq {rest : List Input} (hinbox : s.inbox = .irq :: rest) : s.fetch = some .line := by
  simp [State.fetch, hwrite, hinbox]

theorem step_irq {rest : List Input} (hinbox : s.inbox = .irq :: rest) : step s = exec .irqLine s := by
  simp [step, fetch_irq hwrite hinbox, decode]

/-- Where another agent's move comes next, no instruction is fetched. -/
theorem fetch_async (hasync : s.asyncNext = true) (hirq : ∀ rest, s.inbox ≠ .irq :: rest) : s.fetch = none := by
  unfold State.fetch
  rw [if_neg (by simp [hwrite])]
  split
  · next h => exact absurd h (hirq _)
  · rw [if_pos hasync]

theorem fetch_sequencer (hasync : s.asyncNext = false) : s.fetch = s.fetchSequencer := by
  unfold State.fetch
  rw [if_neg (by simp [hwrite])]
  split
  · next h => simp [State.asyncNext, h, Input.isAsync] at hasync
  · rw [if_neg (by simp [hasync])]

theorem otherMove_sequencer (hasync : s.asyncNext = false) :
    s.otherMove = if !s.atRest then tickStep s else if s.dispatchPending then startDispatch s.arbitrate.2
      else .next s.dropStray := by
  unfold State.otherMove
  rw [if_neg (by simp [hwrite])]
  split
  · next h => simp [State.asyncNext, h, Input.isAsync] at hasync
  · next h => simp [State.asyncNext, h, Input.isAsync] at hasync
  · next h => simp [State.asyncNext, h, Input.isAsync] at hasync
  · rfl

theorem step_request {q : HostReq} {rest : List Input} (hinbox : s.inbox = .request q :: rest) :
    step s = .next ((taken rest s).postRequest q) := by
  have hfetch : s.fetch = none :=
    fetch_async hwrite (by simp [State.asyncNext, hinbox, Input.isAsync]) (by simp [hinbox])
  simp [step, hfetch, State.otherMove, hwrite, hinbox, taken]

theorem step_rst {rest : List Input} (hinbox : s.inbox = .rst :: rest) : step s = .next (taken rest s).blockReset := by
  have hfetch : s.fetch = none :=
    fetch_async hwrite (by simp [State.asyncNext, hinbox, Input.isAsync]) (by simp [hinbox])
  simp [step, hfetch, State.otherMove, hwrite, hinbox, taken]

theorem step_portRead {rn : BitVec 5} {draw : BitVec 16} {rest : List Input}
    (hinbox : s.inbox = .portRead rn draw :: rest) : step s = .next ((taken rest s).portRead rn draw) := by
  have hfetch : s.fetch = none :=
    fetch_async hwrite (by simp [State.asyncNext, hinbox, Input.isAsync]) (by simp [hinbox])
  simp [step, hfetch, State.otherMove, hwrite, hinbox, taken]

end

/-- A waiting host writes before anything else (R42, log 8). -/
theorem step_hostWrites {s : State} {q : HostReq} {w : List HostReq} (hfree : s.hostReq = none)
    (hwaiting : s.hostWait = q :: w) : step s = .next { s with hostReq := some q, hostWait := w } := by
  have hwrite : s.hostCanWrite = true := by simp [State.hostCanWrite, hfree, hwaiting]
  simp [step, State.fetch, State.otherMove, hwrite, State.writeWaiting, hwaiting]

theorem step_of_fetch {s : State} {w : Wire} {i : Instr} (hfetch : s.fetch = some w)
    (hdecode : decode s.par w = .ok i) :
    step s = exec i s := by
  simp [step, hfetch, hdecode]

theorem step_of_no_fetch {s : State} (hfetch : s.fetch = none) : step s = s.otherMove := by
  simp [step, hfetch]

theorem atRest_false_of_call {s : State} {c : Call} (h : s.call = some c) : s.atRest = false := by
  simp [State.atRest, h]

/-- Where the sequencer is busy and no frame or command stands there, the step is one tick. -/
theorem step_tick {s : State} (hwrite : s.hostCanWrite = false) (hasync : s.asyncNext = false)
    (hbusy : s.atRest = false) (hfetch : s.fetchSequencer = none) : step s = tickStep s := by
  rw [step_of_no_fetch (by rw [fetch_sequencer hwrite hasync, hfetch]), otherMove_sequencer hwrite hasync]
  simp [hbusy]

/-- A receive that a frame can answer: its instruction is the tick and what follows it, else the step is a tick. -/
theorem step_receive {s : State} {kind : List Byte → Wire} {n : Nat} {going : State → Bool}
    (fuel : State → Nat) (hwrite : s.hostCanWrite = false) (hasync : s.asyncNext = false)
    (hcall : s.call = some (.busRecv n)) (hfetch : s.fetchSequencer = s.fetchFrame kind n)
    (hexec : ∀ f i, f.length = n → decode s.par (kind f) = .ok i →
      exec i s = run going (fuel (s.receiveFrame f)) (s.receiveFrame f)) : StepIs s (step s) := by
  have hbusy := atRest_false_of_call hcall
  cases hframe : s.fetchFrame kind n with
  | none => rw [step_tick hwrite hasync hbusy (hfetch.trans hframe)]; exact tickStep_is hbusy
  | some w =>
    obtain ⟨d, b, rest, i, hinbox, hlen, rfl, hdecode⟩ := fetchFrame_some hframe
    rw [step_of_fetch (by rw [fetch_sequencer hwrite hasync, hfetch, hframe]) hdecode,
      hexec _ i (List.length_take_of_le hlen) hdecode]
    exact .ticks hbusy (.inr (tick_receive hcall hinbox hlen))

theorem awaitsResponse_iff (s : State) :
    s.awaitsResponse = true ↔ s.call = some (.busRecv s.par.lit.cmdLen) ∧ s.unit.map Prod.snd = some .t3 := by
  simp [State.awaitsResponse]

theorem awaitsHello_iff (s : State) :
    s.awaitsHello = true ↔ s.call = some (.busRecv s.par.lit.helloLen) ∧ s.unit = none ∧ s.stepName = some .a9 := by
  simp [State.awaitsHello, and_assoc]

theorem awaitsIrqFrame_iff (s : State) :
    s.awaitsIrqFrame = true ↔ s.call = some (.busRecv s.par.lit.rptLen) ∧ s.unit = none ∧ s.stepName = some .i4 := by
  simp [State.awaitsIrqFrame, and_assoc]

/-- Where no receive is outstanding that a frame answers, what stands at the sequencer's side is the command at T1 or
the request that the arbiter picks. -/
theorem fetchSequencer_of_no_receive {s : State} (hresp : s.awaitsResponse = false) (hhello : s.awaitsHello = false)
    (hirq : s.awaitsIrqFrame = false) :
    s.fetchSequencer =
      match s.call, s.unit with
      | none, some (op, .t1) => some (.sent (op.frame s.par))
      | none, none => if s.step.isNone then s.fetchRequest else none
      | _, _ => none := by
  unfold State.fetchSequencer
  rw [hresp, hhello, hirq]
  rfl

theorem fetchRequest_cases (s : State) :
    s.fetchRequest = none ∨ ∃ q, s.hostReq = some q ∧ s.fetchRequest = some (.request q) := by
  unfold State.fetchRequest
  split
  · cases h : s.hostReq with
    | none => exact .inl rfl
    | some q => exact .inr ⟨q, rfl, rfl⟩
  · exact .inl rfl

theorem fetchSequencer_of_no_call {s : State} (hcall : s.call = none) :
    s.fetchSequencer =
      match s.unit with
      | some (op, .t1) => some (.sent (op.frame s.par))
      | none => if s.step.isNone then s.fetchRequest else none
      | _ => none := by
  rw [fetchSequencer_of_no_receive (by simp [State.awaitsResponse, hcall]) (by simp [State.awaitsHello, hcall])
    (by simp [State.awaitsIrqFrame, hcall]), hcall]
  rcases s.unit with _ | ⟨op, _ | _ | _ | _⟩ <;> rfl

/-- The sequencer's step while no call is outstanding. -/
theorem step_no_call {s : State} (hwrite : s.hostCanWrite = false) (hasync : s.asyncNext = false)
    (hcall : s.call = none) : StepIs s (step s) := by
  have hfetch := fetchSequencer_of_no_call hcall
  cases hunit : s.unit with
  | some ou =>
    obtain ⟨op, u⟩ := ou
    have hbusy : s.atRest = false := by simp [State.atRest, hunit]
    rw [hunit] at hfetch
    cases u with
    | t1 =>
      obtain ⟨o, hdecode, hframe⟩ := Encoding.decode_frame s.par op
      rw [step_of_fetch (by rw [fetch_sequencer hwrite hasync, hfetch]) hdecode,
        exec_of_frame_at_t1 hunit hframe]
      exact .ticks hbusy (.inl rfl)
    | _ => rw [step_tick hwrite hasync hbusy hfetch]; exact tickStep_is hbusy
  | none =>
    rw [hunit] at hfetch
    cases hstep : s.step with
    | some l =>
      have hbusy : s.atRest = false := by simp [State.atRest, hstep]
      rw [step_tick hwrite hasync hbusy (by rw [hfetch, hstep]; rfl)]
      exact tickStep_is hbusy
    | none =>
      have hrest : s.atRest = true := (atRest_iff s).mpr ⟨hstep, hunit, hcall⟩
      have hfetch' : s.fetchSequencer = s.fetchRequest := by rw [hfetch, hstep]; rfl
      rcases fetchRequest_cases s with hnone | ⟨q, -, hsome⟩
      · rw [step_of_no_fetch (by rw [fetch_sequencer hwrite hasync, hfetch', hnone]),
          otherMove_sequencer hwrite hasync, if_neg (by simp [hrest])]
        split
        · next hpending => exact .starts (.pending hrest hpending)
        · obtain ⟨moves, hstray⟩ : ∃ moves, s.dropStray = taken moves s := by
            unfold State.dropStray
            split
            · exact ⟨_, rfl⟩
            · exact ⟨_, rfl⟩
            · exact ⟨s.inbox, rfl⟩
          rw [hstray]
          exact .outside (.stray hrest)
      · rw [step_of_fetch (by rw [fetch_sequencer hwrite hasync, hfetch', hsome]) rfl]
        exact request_is hrest q

/-- The sequencer's step while a call is outstanding. -/
theorem step_call {s : State} {c : Call} (hwrite : s.hostCanWrite = false) (hasync : s.asyncNext = false)
    (hcall : s.call = some c) : StepIs s (step s) := by
  have hbusy := atRest_false_of_call hcall
  by_cases hresp : s.awaitsResponse = true
  · obtain ⟨hcall', -⟩ := (awaitsResponse_iff s).mp hresp
    refine step_receive (kind := .reply) (going := fun t => t.unit.isSome) State.fuel hwrite hasync hcall'
      (by simp [State.fetchSequencer, hresp]) ?_
    intro f i hlen hdecode
    rw [exec_of_decodeReply hdecode, execResponse, if_pos (by simp [hresp, hlen])]
    rfl
  · by_cases hhello : s.awaitsHello = true
    · obtain ⟨hcall', -⟩ := (awaitsHello_iff s).mp hhello
      refine step_receive (kind := .hello) (going := fun _ => true) (fun _ => 0) hwrite hasync hcall'
        (by simp [State.fetchSequencer, hresp, hhello]) ?_
      intro f i hlen hdecode
      rw [exec_of_decodeHello hdecode, execHelloFrame, if_pos (by simp [hhello, hlen])]
      rfl
    · by_cases hirq : s.awaitsIrqFrame = true
      · obtain ⟨hcall', -⟩ := (awaitsIrqFrame_iff s).mp hirq
        refine step_receive (kind := .irq) (going := fun t => t.step.isSome) State.fuel hwrite hasync hcall'
          (by simp [State.fetchSequencer, hresp, hhello, hirq]) ?_
        intro f i hlen hdecode
        rw [exec_of_decodeIrq hdecode, execIrqFrame, if_pos (by simp [hirq, hlen])]
        rfl
      · have hfetch : s.fetchSequencer = none := by
          rw [fetchSequencer_of_no_receive (by simpa using hresp) (by simpa using hhello) (by simpa using hirq), hcall]
        rw [step_tick hwrite hasync hbusy hfetch]
        exact tickStep_is hbusy

/-- Every step is a move of another agent, the start of an operation, or ticks of the operation in flight. -/
theorem step_is (s : State) : StepIs s (step s) := by
  cases hwrite : s.hostCanWrite with
  | true =>
    obtain ⟨hfree, hwaiting⟩ : s.hostReq = none ∧ s.hostWait ≠ [] := by simpa [State.hostCanWrite] using hwrite
    obtain ⟨q, w, hcons⟩ := List.exists_cons_of_ne_nil hwaiting
    rw [step_hostWrites hfree hcons]
    exact .outside (.hostWrites hfree hcons)
  | false =>
    rcases asyncNext_cases s with hasync | ⟨rest, hirq | hrst | ⟨q, hreq⟩ | ⟨rn, draw, hread⟩⟩
    · cases hcall : s.call with
      | none => exact step_no_call hwrite hasync hcall
      | some c => exact step_call hwrite hasync hcall
    · rw [step_irq hwrite hirq]; exact irqLine_is hirq
    · rw [step_rst hwrite hrst]; exact .outside (.reset hrst)
    · rw [step_request hwrite hreq]; exact .outside (.request hreq)
    · rw [step_portRead hwrite hread]; exact .outside (.portRead hread)

/-- What no move of another agent, no start and no tick breaks, no step breaks. -/
theorem step_keeps {P : State → Prop} {s t : State} (htick : ∀ a b, P a → tick a = .moved b → P b)
    (houtside : ∀ u, P s → Outside s u → P u) (hstarts : ∀ u, P s → Starts s u → P u) (hs : P s)
    (h : step s = .next t) : P t := by
  have his := step_is s
  rw [h] at his
  generalize hout : (Host.Outcome.next t : Host.Outcome State Fault Refusal) = out at his
  cases his with
  | outside move => cases hout; exact houtside t hs move
  | starts start => exact run_keeps (fun a b _ hab ha => htick a b ha hab) (hstarts _ hs start) hout.symm
  | ticks busy first =>
    refine run_keeps (fun a b _ hab ha => htick a b ha hab) ?_ hout.symm
    rcases first with rfl | hmoved
    · exact hs
    · exact htick s _ hs hmoved

end Sys2Proof.Proofs.Steps
end

/-! Where the sequencer stands: the unit operation in flight, its result and the outstanding call belong to the step in
flight. From it, the bound on every run (70_reset_and_hazards.md R302). -/

section
namespace Sys2Proof.Proofs.Location

open Sys2Proof Sys2Proof.Machine Sys2Proof.Safety Sys2Proof.Proofs.Ticks Sys2Proof.Proofs.Steps

/-! ## The unit operation, its result and the call stand where the step lists put them -/

/-- The part of the invariant that speaks of the program counter alone: every tick keeps it, whatever is held. -/
structure Located (s : State) : Prop where
  idle : s.step = none → s.call = none
  unit : UnitHeld s
  result : ResultHeld s
  frame : FrameCall s
  finger : ∀ v, s.step = some (.f2 (.ok v)) → ∃ b, v = .flag b

/-- The fields that `Located` reads, RX apart. -/
theorem located_congr {s t : State} (h : Located s) (hstep : t.step = s.step) (hunit : t.unit = s.unit)
    (hur : t.ur = s.ur) (hcall : t.call = s.call) (hpar : t.par = s.par) (hrx : t.rx = s.rx) : Located t := by
  obtain ⟨hidle, hunits, hresult, hframe, hfinger⟩ := h
  unfold UnitHeld at hunits
  unfold ResultHeld at hresult
  unfold FrameCall at hframe
  rw [← hstep] at hidle hunits hresult hframe hfinger
  rw [← hcall] at hidle hresult hframe
  rw [← hunit] at hunits hresult
  rw [← hur] at hunits hresult
  rw [← hrx] at hunits
  rw [← hpar] at hframe
  exact ⟨hidle, hunits, hresult, hframe, hfinger⟩

/-- A step that stands with no unit operation and no result of one. -/
theorem located_at {s : State} {l : Label} (hstep : s.step = some l) (hunit : s.unit = none) (hur : s.ur = none)
    (hcall : l = .i4 → ∀ c, s.call = some c → c = .busRecv s.par.lit.rptLen)
    (hfinger : ∀ v, l = .f2 (.ok v) → ∃ b, v = .flag b) : Located s where
  idle h := nomatch hstep.symm.trans h
  unit _ _ h := nomatch hunit.symm.trans h
  result _ h := nomatch hur.symm.trans h
  frame h := hcall (Option.some.inj (hstep.symm.trans h))
  finger v h := hfinger v (Option.some.inj (hstep.symm.trans h))

theorem located_goto {s : State} {l : Label} (hunit : s.unit = none) (hcall : s.call = none)
    (hfinger : ∀ v, l = .f2 (.ok v) → ∃ b, v = .flag b) : Located (s.goto l) :=
  located_at rfl hunit rfl (fun _ _ h => nomatch hcall.symm.trans h) hfinger

/-- A label without a result is not F2. -/
theorem finger_of_plain {l : Label} (h : carriesResult l = false) : ∀ v, l = .f2 (.ok v) → ∃ b, v = .flag b := by
  rintro v rfl
  cases h

theorem located_finish {s : State} (hunit : s.unit = none) (hcall : s.call = none) (r : ResultCode)
    (v : Option Bool) : Located (s.finish r v) where
  idle _ := by simpa using hcall
  unit _ _ h := nomatch hunit.symm.trans ((State.finish_unit r v s).symm.trans h)
  result _ h := nomatch (State.finish_ur r v s).symm.trans h
  frame h := nomatch (State.finish_step r v s).symm.trans h
  finger _ h := nomatch (State.finish_step r v s).symm.trans h

/-- A unit operation in flight at the step that calls it. -/
theorem located_unit {s : State} {op : UnitOp} {u : TStep} (hstep : s.step = some (UnitOp.caller op))
    (hunit : s.unit = some (op, u)) (hur : s.ur = none) (hrx : u = .t4 → s.rx.isSome) : Located s where
  idle h := nomatch hstep.symm.trans h
  unit o t h := by
    cases hunit.symm.trans h
    exact ⟨hstep, hur, hrx⟩
  result _ h := nomatch hur.symm.trans h
  frame h := by
    have hcalled := congrArg calledAt (Option.some.inj (hstep.symm.trans h))
    rw [calledAt_caller] at hcalled
    cases hcalled
  finger v h := by
    have hcalled := congrArg calledAt (Option.some.inj (hstep.symm.trans h))
    rw [calledAt_caller] at hcalled
    cases hcalled

/-- A result that its unit operation has just returned. -/
theorem located_result {s : State} {op : UnitOp} {r : UnitResult} (hstep : s.step = some (UnitOp.caller op))
    (hunit : s.unit = none) (hcall : s.call = none) (hur : s.ur = some r)
    (hkind : ∀ v, r = .ok v → ReturnsKind op v) : Located s where
  idle h := nomatch hstep.symm.trans h
  unit _ _ h := nomatch hunit.symm.trans h
  result r' h := by
    cases hur.symm.trans h
    exact ⟨op, hstep, hunit, hcall, hkind⟩
  frame _ _ h := nomatch hcall.symm.trans h
  finger v h := by
    have hcalled := congrArg calledAt (Option.some.inj (hstep.symm.trans h))
    rw [calledAt_caller] at hcalled
    cases hcalled

theorem located_popTurn {s : State} (h : Located s) : Located s.popTurn :=
  located_congr h (by simp) (by simp) (by simp) (by simp) (by simp) (by simp)

/-- No answer is awaited while a result stands (R41). -/
theorem ur_of_call {s : State} (h : Located s) {c : Call} (hcall : s.call = some c) : s.ur = none := by
  cases hur : s.ur with
  | none => rfl
  | some r =>
    obtain ⟨-, -, -, hnone, -⟩ := h.result r hur
    exact nomatch hcall.symm.trans hnone

section
variable {op : UnitOp} {l : Label} {s t : State}

theorem labelMove_located (h : Located s) (hstep : s.step = some l) (hunit : s.unit = none) (hur : s.ur = none)
    (hcall : s.call = none) (hmove : LabelMove l s t) : Located t := by
  cases hmove with
  | issue noted frame =>
    refine located_at (noted.step.trans hstep) (noted.unit.trans hunit) (noted.ur.trans hur) ?_ ?_
    · intro hl c hc
      rw [← Option.some.inj hc]
      exact (frame hl).trans (by rw [← noted.par]; rfl)
    · rintro v rfl
      exact h.finger v hstep
  | enter noted caller =>
    exact located_unit (by rw [← caller]; exact noted.step.trans hstep) rfl rfl nofun
  | goto noted later =>
    obtain ⟨-, -, hplain⟩ := (follows_iff _ _).mp later
    exact located_goto (noted.unit.trans hunit) (noted.call.trans hcall) (finger_of_plain hplain)
  | finish noted => exact located_finish (noted.unit.trans hunit) (noted.call.trans hcall) ..

theorem returnMove_located {r : UnitResult} (hunit : s.unit = none) (hur : s.ur = some r) (hcall : s.call = none)
    (hkind : ∀ v, r = .ok v → ReturnsKind op v) (hmove : ReturnMove (UnitOp.caller op) s t) : Located t := by
  cases hmove with
  | goto noted later =>
    obtain ⟨-, -, hplain⟩ := (follows_iff _ _).mp later
    exact located_goto (noted.unit.trans hunit) (noted.call.trans hcall) (finger_of_plain hplain)
  | finger at_ result =>
    obtain rfl : op = .fingerRead := caller_injective at_
    refine located_goto hunit hcall ?_
    rintro v hv
    cases hv
    exact hkind v (Option.some.inj (hur.symm.trans result))

theorem answerMove_located (h : Located s) (hunit : s.unit = none) (hcall : s.call = none)
    (hmove : AnswerMove l s t) : Located t := by
  cases hmove with
  | ignored => exact h
  | goto noted op later plain =>
    exact located_goto (noted.unit.trans hunit) (noted.call.trans hcall) (finger_of_plain plain)
  | finish noted => exact located_finish (noted.unit.trans hunit) (noted.call.trans hcall) ..

theorem unitMove_located {u : TStep} (h : Located s) (hunit : s.unit = some (op, u)) (hcall : s.call = none)
    (hmove : UnitMove op s t) : Located t := by
  obtain ⟨hstep, hur, hrx⟩ := h.unit op u hunit
  cases hmove with
  | @issue tx rx c keeps send ack => exact located_unit hstep hunit hur fun hu => keeps (hrx hu)
  | ret kind => exact located_result hstep rfl hcall rfl kind

theorem unitAnswerMove_located {u : TStep} (h : Located s) (hunit : s.unit = some (op, u)) (hcall : s.call = none)
    (hmove : UnitAnswerMove op s t) : Located t := by
  obtain ⟨hstep, hur, -⟩ := h.unit op u hunit
  cases hmove with
  | ignored => exact h
  | goto received => exact located_unit hstep rfl hur received
  | ret kind => exact located_result hstep rfl hcall rfl kind

theorem answered_located (h : Located s) {c : Call} (hcall : s.call = some c) (hstep : s.step ≠ none) (d : Nat)
    (r : Reply) (rest : List Input) : Located ((taken rest s).answered c d r) where
  idle hnone := absurd hnone hstep
  unit := h.unit
  result _ hur := nomatch (ur_of_call h hcall).symm.trans hur
  frame _ _ hc := nomatch hc
  finger := h.finger

theorem tick_located (h : Located s) (htick : tick s = .moved t) : Located t := by
  cases tick_move htick with
  | dropped call next => exact located_congr h rfl rfl rfl rfl rfl rfl
  | @unitAnswered c d r rest op u t call next fits unit move =>
    obtain ⟨hstep, -, -⟩ := h.unit op u unit
    have ha := answered_located h call (by rw [hstep]; nofun) d r rest
    exact unitAnswerMove_located ha unit rfl move
  | @labelAnswered c d r rest l call next fits unit step =>
    exact answerMove_located (answered_located h call (by rw [step]; nofun) d r rest) unit rfl (labelAnswer_move l r _)
  | idleAnswered call next unit step => exact nomatch call.symm.trans (h.idle step)
  | unitStepped call unit move =>
    exact unitMove_located (located_popTurn h) (by simpa using unit) (by simpa using call) move
  | @returned l r t call unit step ur move =>
    obtain ⟨op, hcaller, -, -, hkind⟩ := h.result r ur
    obtain rfl : l = UnitOp.caller op := Option.some.inj (step.symm.trans hcaller)
    rcases labelReturn_move (by simpa using ur) move with ⟨rfl, -⟩ | hmove
    · exact located_popTurn h
    · exact returnMove_located (by simpa using unit) (by simpa using ur) (by simpa using call) hkind hmove
  | begun call unit step ur move =>
    rcases labelBegin_move move with ⟨rfl, -⟩ | hmove
    · exact located_popTurn h
    · exact labelMove_located (located_popTurn h) (by simpa using step) (by simpa using unit) (by simpa using ur)
        (by simpa using call) hmove

end

/-! ## The bound on a run (R302) -/

/-- How much of the work of a step is behind the sequencer: the unit operation entered, its result, the call made. -/
def spent (s : State) : Nat :=
  (if s.unit.isSome then 1 else 0) + (if s.ur.isSome then 2 else 0) + (if s.call.isSome then 1 else 0)

/-- What the operation in flight can still do without an answer. -/
def work (s : State) : Nat :=
  match s.step with
  | none => 0
  | some l => 3 * rank l - spent s

/-- An upper bound of the ticks to come: an answer takes a move from the inbox and gives back at most one tick. -/
def potential (s : State) : Nat := 2 * s.inbox.length + work s

theorem work_some {s : State} {l : Label} (h : s.step = some l) : work s = 3 * rank l - spent s := by
  simp [work, h]

theorem work_none {s : State} (h : s.step = none) : work s = 0 := by simp [work, h]

theorem spent_le {s : State} (h : Located s) : spent s ≤ 2 := by
  unfold spent
  cases hunit : s.unit with
  | some ou =>
    obtain ⟨-, hur, -⟩ := h.unit ou.1 ou.2 hunit
    rw [hur]
    split_ifs <;> simp_all
  | none =>
    cases hcall : s.call with
    | some c => rw [ur_of_call h hcall]; simp
    | none => split_ifs <;> simp_all

theorem potential_pos {s : State} (h : Located s) (hstep : s.step.isSome) : 0 < potential s := by
  obtain ⟨l, hl⟩ := Option.isSome_iff_exists.mp hstep
  have hrank := rank_pos l
  have hspent := spent_le h
  rw [potential, work_some hl]
  omega

theorem popTurn_inbox_le (s : State) : s.popTurn.inbox.length ≤ s.inbox.length := by
  rcases popTurn_cases s with ⟨b, rest, hinbox, h⟩ | ⟨-, h⟩
  · rw [h, hinbox]; simp
  · rw [h]

section
variable {op : UnitOp} {l : Label} {s t : State}

theorem labelMove_potential (hstep : s.step = some l) (hspent : spent s = 0) (hmove : LabelMove l s t) :
    potential t < potential s := by
  have hrank := rank_pos l
  have hunit : s.unit = none := by
    cases h : s.unit with
    | none => rfl
    | some ou => simp [spent, h] at hspent
  have hur : s.ur = none := by
    cases h : s.ur with
    | none => rfl
    | some r => simp [spent, h] at hspent
  have hcall : s.call = none := by
    cases h : s.call with
    | none => rfl
    | some c => simp [spent, h] at hspent
  have hs : potential s = 2 * s.inbox.length + 3 * rank l := by rw [potential, work_some hstep, hspent]; rfl
  rw [hs]
  cases hmove with
  | @issue u c noted =>
    have ht : work (u.issue c) = 3 * rank l - spent (u.issue c) := work_some (noted.step.trans hstep)
    simp [potential, ht, spent, noted.inbox, noted.unit, noted.ur, hunit, hur]
    omega
  | @enter u op noted caller =>
    have ht : work (u.unitEnter op) = 3 * rank l - spent (u.unitEnter op) := work_some (noted.step.trans hstep)
    simp [potential, ht, spent, noted.inbox, noted.call, hcall]
    omega
  | @goto u l' noted later =>
    obtain ⟨-, hlater, -⟩ := (follows_iff _ _).mp later
    have ht : work (u.goto l') ≤ 3 * rank l' := by rw [work_some (State.goto_step l' u)]; omega
    simp only [potential, State.goto_inbox, noted.inbox]
    omega
  | @finish u r v noted =>
    rw [potential, work_none (State.finish_step r v u), State.finish_inbox, noted.inbox]
    omega

theorem returnMove_potential (hstep : s.step = some l) (hspent : spent s = 2) (hmove : ReturnMove l s t) :
    potential t < potential s := by
  have hrank := rank_pos l
  have hs : potential s = 2 * s.inbox.length + (3 * rank l - 2) := by rw [potential, work_some hstep, hspent]
  rw [hs]
  cases hmove with
  | @goto u l' noted later =>
    obtain ⟨-, hlater, -⟩ := (follows_iff _ _).mp later
    have ht : work (u.goto l') ≤ 3 * rank l' := by rw [work_some (State.goto_step l' u)]; omega
    simp only [potential, State.goto_inbox, noted.inbox]
    omega
  | @finger r at_ result =>
    have ht : work (s.goto (.f2 r)) ≤ 3 * 2 := by rw [work_some (State.goto_step _ s)]; exact Nat.sub_le _ _
    simp only [potential, State.goto_inbox, at_, rank]
    omega

theorem answerMove_potential (hstep : s.step = some l) (hspent : spent s = 0) (hmove : AnswerMove l s t) :
    potential t ≤ 2 * s.inbox.length + 3 * rank l := by
  cases hmove with
  | ignored => rw [potential, work_some hstep, hspent]; rfl
  | @goto u l' noted op later plain =>
    have ht : work (u.goto l') ≤ 3 * rank l' := by rw [work_some (State.goto_step l' u)]; omega
    simp only [potential, State.goto_inbox, noted.inbox]
    omega
  | @finish u r v noted =>
    rw [potential, work_none (State.finish_step r v u), State.finish_inbox, noted.inbox]
    omega

theorem unitMove_potential {u : TStep} (hstep : s.step = some l) (hunit : s.unit = some (op, u)) (hur : s.ur = none)
    (hcall : s.call = none) (hmove : UnitMove op s t) : potential t < potential s := by
  have hrank := rank_pos l
  have hs : potential s = 2 * s.inbox.length + (3 * rank l - 1) := by
    rw [potential, work_some hstep]
    simp [spent, hunit, hur, hcall]
  rw [hs]
  cases hmove with
  | @issue tx rx c =>
    have ht : potential ((buffers tx rx s).issue c) = 2 * s.inbox.length + (3 * rank l - 2) := by
      have hstep' : ((buffers tx rx s).issue c).step = some l := hstep
      rw [potential, work_some hstep']
      simp [spent, buffers, hunit, hur]
    omega
  | @ret r =>
    have ht : potential (s.unitReturn r) = 2 * s.inbox.length + (3 * rank l - 2) := by
      have hstep' : (s.unitReturn r).step = some l := hstep
      rw [potential, work_some hstep']
      simp [spent, hcall]
    omega

theorem unitAnswerMove_potential {u : TStep} (hstep : s.step = some l) (hunit : s.unit = some (op, u))
    (hur : s.ur = none) (hcall : s.call = none) (hmove : UnitAnswerMove op s t) :
    potential t ≤ 2 * s.inbox.length + (3 * rank l - 1) := by
  cases hmove with
  | ignored =>
    rw [potential, work_some hstep]
    simp [spent, hunit, hur, hcall]
  | @goto tx rx u =>
    have hstep' : ((buffers tx rx s).unitGoto op u).step = some l := hstep
    rw [potential, work_some hstep']
    simp [spent, buffers, hur, hcall]
  | @ret tx rx r =>
    have hstep' : ((buffers tx rx s).unitReturn r).step = some l := hstep
    rw [potential, work_some hstep']
    simp [spent, buffers, hcall]
    omega

/-- Every tick of an operation uses up some of its bound. -/
theorem tick_potential (h : Located s) (hstep : s.step.isSome) (htick : tick s = .moved t) :
    potential t < potential s := by
  obtain ⟨l, hl⟩ := Option.isSome_iff_exists.mp hstep
  have hrank := rank_pos l
  have hpop := popTurn_inbox_le s
  cases tick_move htick with
  | @dropped c i rest call next =>
    have ht : potential (taken rest s) = 2 * rest.length + work s := rfl
    rw [ht, potential, next, List.length_cons]
    omega
  | @unitAnswered c d r rest op u t call next fits unit move =>
    obtain ⟨-, hur, -⟩ := h.unit op u unit
    have ht := unitAnswerMove_potential (s := (taken rest s).answered c d r) hl unit hur rfl move
    have hrest : ((taken rest s).answered c d r).inbox = rest := rfl
    have hs : potential s = 2 * (rest.length + 1) + (3 * rank l - 2) := by
      simp [potential, work_some hl, next, spent, unit, hur, call]
    rw [hrest] at ht
    omega
  | @labelAnswered c d r rest l' call next fits unit step =>
    obtain rfl : l' = l := Option.some.inj (step.symm.trans hl)
    have hur := ur_of_call h call
    have hspent : spent ((taken rest s).answered c d r) = 0 := by
      simp [spent, State.answered, taken, unit, hur]
    have ht := answerMove_potential (s := (taken rest s).answered c d r) hl hspent (labelAnswer_move l' r _)
    have hrest : ((taken rest s).answered c d r).inbox = rest := rfl
    have hs : potential s = 2 * (rest.length + 1) + (3 * rank l' - 1) := by
      simp [potential, work_some hl, next, spent, unit, hur, call]
    rw [hrest] at ht
    omega
  | idleAnswered call next unit step => exact nomatch hl.symm.trans step
  | unitStepped call unit move =>
    obtain ⟨-, hur, -⟩ := h.unit _ _ unit
    have ht := unitMove_potential (s := s.popTurn) (l := l) (by simpa using hl) (by simpa using unit)
      (by simpa using hur) (by simpa using call) move
    have hs : potential s.popTurn ≤ potential s := by
      simp only [potential, work, spent, State.popTurn_step, State.popTurn_unit, State.popTurn_ur, State.popTurn_call]
      omega
    omega
  | @returned l' r t call unit step ur move =>
    obtain ⟨op, hcaller, -, -, hkind⟩ := h.result r ur
    obtain rfl : l' = UnitOp.caller op := Option.some.inj (step.symm.trans hcaller)
    have hspent : spent s.popTurn = 2 := by simp [spent, unit, ur, call]
    have hs : potential s.popTurn ≤ potential s := by
      simp only [potential, work, spent, State.popTurn_step, State.popTurn_unit, State.popTurn_ur, State.popTurn_call]
      omega
    rcases labelReturn_move (by simpa using ur) move with ⟨-, v, hv, hmis⟩ | hmove
    · exact absurd (hkind v hv) hmis
    · have ht := returnMove_potential (by simpa using step) hspent hmove
      omega
  | @begun l' t call unit step ur move =>
    have hspent : spent s.popTurn = 0 := by simp [spent, unit, ur, call]
    have hs : potential s.popTurn ≤ potential s := by
      simp only [potential, work, spent, State.popTurn_step, State.popTurn_unit, State.popTurn_ur, State.popTurn_call]
      omega
    rcases labelBegin_move move with ⟨-, v, rfl, hv⟩ | hmove
    · obtain ⟨b, hb⟩ := h.finger v step
      exact absurd hb (hv b)
    · have ht := labelMove_potential (by simpa using step) hspent hmove
      omega

end

/-! ## Runs to the end -/

/-- A chain of ticks of one instruction. -/
def Ticks (going : State → Bool) : State → State → Prop :=
  Relation.ReflTransGen fun a b => going a = true ∧ tick a = .moved b

/-- A run with a bound that every tick uses up gets to the end of any chain of ticks. -/
theorem run_of_ticks {going : State → Bool} {P : State → Prop} {bound : State → Nat}
    (hkeep : ∀ a b, P a → going a = true → tick a = .moved b → P b ∧ bound b < bound a) {s t : State} (hs : P s)
    (hticks : Ticks going s t) (hend : going t = false ∨ tick t = .rest) {n : Nat} (hn : bound s ≤ n) :
    run going n s = .next t := by
  induction hticks using Relation.ReflTransGen.head_induction_on generalizing n with
  | refl =>
    rcases hend with hdone | hrest
    · exact run_done n hdone
    · exact run_rest n hrest
  | head hab _ ih =>
    obtain ⟨hb, hlt⟩ := hkeep _ _ hs hab.1 hab.2
    obtain ⟨m, rfl⟩ : ∃ m, n = m + 1 := ⟨n - 1, by omega⟩
    rw [run_moved m hab.1 hab.2]
    exact ih hb (by omega)

/-- A run with enough fuel ends where the operation does or where the sequencer has no move. -/
theorem run_ends {going : State → Bool} {P : State → Prop} {bound : State → Nat}
    (hkeep : ∀ a b, P a → going a = true → tick a = .moved b → P b ∧ bound b < bound a)
    (hpos : ∀ a, P a → going a = true → 0 < bound a) {s t : State} (hs : P s) {n : Nat} (hn : bound s ≤ n)
    (hrun : run going n s = .next t) : going t = false ∨ tick t = .rest := by
  induction n generalizing s with
  | zero =>
    cases hrun
    cases hgoing : going t with
    | false => exact .inl rfl
    | true => exact absurd (hpos t hs hgoing) (by omega)
  | succ n ih =>
    unfold run at hrun
    split at hrun
    · next hgoing =>
      split at hrun
      · next b htick =>
        obtain ⟨hb, hlt⟩ := hkeep s b hs hgoing htick
        exact ih hb (by omega) hrun
      · next hrest =>
        cases hrun
        exact .inr hrest
      · cases hrun
    · next hdone =>
      cases hrun
      exact .inl (by simpa using hdone)

theorem op_ticks_bounded (a b : State) (ha : Located a) (hstep : a.step.isSome = true) (htick : tick a = .moved b) :
    Located b ∧ potential b < potential a :=
  ⟨tick_located ha htick, tick_potential ha hstep htick⟩

theorem potential_le_fuel (s : State) : potential s ≤ s.fuel := by
  have hwork : work s ≤ 84 := by
    cases h : s.step with
    | none => rw [work_none h]; omega
    | some l =>
      have hrank := rank_le l
      rw [work_some h]
      omega
  unfold potential State.fuel
  omega

/-- An operation in flight runs along its ticks to its end. -/
theorem runOp_of_ticks {s t : State} (hs : Located s) (hticks : Ticks (fun a => a.step.isSome) s t)
    (hend : t.step = none ∨ tick t = .rest) : runOp s = .next t :=
  run_of_ticks op_ticks_bounded hs hticks (hend.imp_left fun h => by rw [h]; rfl) (potential_le_fuel s)

theorem runOp_ends {s t : State} (hs : Located s) (hrun : runOp s = .next t) : t.step = none ∨ tick t = .rest :=
  (run_ends op_ticks_bounded (fun _ => potential_pos) hs (potential_le_fuel s) hrun).imp_left fun h => by
    simpa using h

/-! ## Operations start where the sequencer stands at rest -/

theorem firstLabel_plain {i : Instr} {l : Label} (h : firstLabel i = some l) : carriesResult l = false := by
  cases i <;> cases h <;> rfl

/-- The state at step 0 of a request. -/
theorem located_takeRequest {i : Instr} {l : Label} {s : State} (hrest : s.atRest = true)
    (hfirst : firstLabel i = some l) : Located ((s.takePort i).takeRequest l) := by
  obtain ⟨-, hunit, hcall⟩ := (atRest_iff s).mp hrest
  obtain ⟨q, moves, n, hport⟩ := Arbiter.takePort_frame i s
  rw [hport]
  exact located_goto hunit hcall (finger_of_plain (firstLabel_plain hfirst))

/-- The state at I1 of a DISPATCH that starts at rest. -/
theorem located_enterDispatch {s : State} (hrest : s.atRest = true) : Located s.popTurn.enterDispatch := by
  obtain ⟨-, hunit, hcall⟩ := (atRest_iff s).mp hrest
  exact located_goto (by simpa using hunit) (by simpa using hcall) nofun

theorem arbitrate_atRest {s : State} (hrest : s.atRest = true) : s.arbitrate.2.atRest = true := by
  rcases arbitrate_state s with h | h <;> rw [h] <;> exact hrest

theorem starts_located {s t : State} (h : Starts s t) : Located t := by
  cases h with
  | request rest first => exact located_takeRequest rest first
  | pending rest pending => exact located_enterDispatch (arbitrate_atRest rest)
  | asserted rest pending => exact located_enterDispatch rest

/-- No move of another agent starts an operation. -/
theorem outside_step {s t : State} (h : Outside s t) : t.step = s.step ∨ t.step = none := by
  cases h with
  | hostWrites => exact .inl rfl
  | request => exact .inl (by unfold State.postRequest; split <;> rfl)
  | reset => exact .inr rfl
  | portRead => exact .inl rfl
  | asserted => exact .inl rfl
  | stray => exact .inl rfl
  | @reserved i =>
    obtain ⟨q, moves, n, hport⟩ := Arbiter.takePort_frame i s
    rw [hport]
    exact .inl rfl

theorem irqLine_bounded {s t : State} (hrest : s.atRest = true) (h : exec .irqLine s = .next t) :
    t.step = none ∨ tick t = .rest := by
  obtain ⟨moves, htake⟩ : ∃ moves, s.takeAssertion = taken moves s := by
    unfold State.takeAssertion
    split
    · exact ⟨_, rfl⟩
    · exact ⟨s.inbox, rfl⟩
  change execIrqLine s = .next t at h
  unfold execIrqLine at h
  rw [htake] at h
  dsimp only at h
  split at h
  · exact runOp_ends (located_enterDispatch (s := (taken moves s).latchIrq) hrest) h
  · cases h
    exact .inl ((atRest_iff s).mp hrest).1

/-- Settles O50: the bound of `potential` is below the fuel, and every tick uses some of it up. -/
theorem operationsAreBounded : Obligations.OperationsAreBounded := by
  refine ⟨fun i s t hi hrest h => ?_, fun s t hrest h => ?_⟩
  · by_cases hirq : i = .irqLine
    · rw [hirq] at h
      exact irqLine_bounded hrest h
    · obtain ⟨l, hfirst⟩ : ∃ l, firstLabel i = some l := by
        rcases hi with ⟨cfg, rfl⟩ | rfl | rfl | rfl | rfl | rfl
        · exact ⟨_, rfl⟩
        · exact ⟨_, rfl⟩
        · exact ⟨_, rfl⟩
        · exact ⟨_, rfl⟩
        · exact ⟨_, rfl⟩
        · exact absurd rfl hirq
      rw [exec_of_firstLabel hfirst hrest] at h
      exact runOp_ends (located_takeRequest hrest hfirst) h
  · have his := step_is s
    rw [h] at his
    generalize hout : (Host.Outcome.next t : Host.Outcome State Fault Refusal) = out at his
    cases his with
    | outside move =>
      cases hout
      obtain ⟨hstep, -, -⟩ := (atRest_iff s).mp hrest
      exact .inl ((outside_step move).elim (fun hsame => hsame.trans hstep) id)
    | starts start => exact runOp_ends (starts_located start) hout.symm
    | ticks busy => exact nomatch hrest.symm.trans busy

end Sys2Proof.Proofs.Location
end

/-! The configuration record: what `Valid(cfg)` accepts and what it keeps (60_exceptions.md R282). -/

section
namespace Sys2Proof.Proofs.Records

open Sys2Proof Sys2Proof.Machine Sys2Proof.Safety

/-- A 16-bit word keeps an integer of 0..65535, and no other. -/
theorem word16Of_eq_some_iff (v : Option Int) (w : BitVec 16) : word16Of v = some w ↔ v = some (w.toNat : Int) := by
  have hw : w.toNat < 65536 := w.isLt
  cases v with
  | none => simp [word16Of]
  | some n =>
    by_cases h : 0 ≤ n ∧ n ≤ 65535
    · obtain ⟨k, rfl⟩ := Int.eq_ofNat_of_zero_le h.1
      have hk : k < 65536 := by omega
      have hofInt : BitVec.ofInt 16 (k : Int) = w ↔ k = w.toNat := by
        rw [BitVec.ofInt_natCast]
        constructor
        · rintro rfl
          rw [BitVec.toNat_ofNat, Nat.mod_eq_of_lt hk]
        · rintro rfl
          exact BitVec.ofNat_toNat ..
      rw [word16Of, if_pos h, Option.some.injEq, Option.some.injEq, hofInt, Int.ofNat_inj]
    · rw [word16Of, if_neg h]
      constructor
      · nofun
      · intro hn
        cases hn
        exact absurd ⟨Int.natCast_nonneg _, by omega⟩ h

theorem isSome_word16Of_iff (n : Int) : (word16Of (some n)).isSome = true ↔ 0 ≤ n ∧ n ≤ 65535 := by
  by_cases h : 0 ≤ n ∧ n ≤ 65535 <;> simp [word16Of, h]

theorem screenMaxOf_eq_some_iff (p : Params) (v : Option Int) (w : BitVec 16) :
    screenMaxOf p v = some w ↔ v = some (w.toNat : Int) ∧ w.toNat < 2 ^ p.lit.screenW := by
  rw [← word16Of_eq_some_iff]
  unfold screenMaxOf
  cases word16Of v with
  | none => simp
  | some x =>
    by_cases hx : x.toNat < 2 ^ p.lit.screenW
    · simp only [hx, if_true, Option.some.injEq]
      exact ⟨fun h => ⟨h, h ▸ hx⟩, And.left⟩
    · simp only [hx, if_false, Option.some.injEq]
      exact ⟨nofun, fun ⟨h, hlt⟩ => absurd (h ▸ hlt) hx⟩

theorem absentOrInRange_iff (v : Option Int) : absentOrInRange v = true ↔ ∀ n, v = some n → 0 ≤ n ∧ n ≤ 65535 := by
  cases v with
  | none => simp [absentOrInRange]
  | some n => simp [absentOrInRange, isSome_word16Of_iff]

theorem sensorOf_eq_some_iff (p : Params) (c : CfgRecord) (sensor : Option (BitVec 16 × BitVec 16)) :
    sensorOf p c = some sensor ↔
      match p.sensorMaxSource, sensor with
      | .queried, none => (∀ n, c.snx = some n → 0 ≤ n ∧ n ≤ 65535) ∧ ∀ n, c.sny = some n → 0 ≤ n ∧ n ≤ 65535
      | .config, some (x, y) => c.snx = some (x.toNat : Int) ∧ c.sny = some (y.toNat : Int)
      | _, _ => False := by
  unfold sensorOf
  cases p.sensorMaxSource with
  | queried =>
    rw [← absentOrInRange_iff, ← absentOrInRange_iff, ← Bool.and_eq_true]
    cases sensor <;> cases absentOrInRange c.snx && absentOrInRange c.sny <;> simp
  | config =>
    cases sensor with
    | none => cases word16Of c.snx <;> cases word16Of c.sny <;> simp
    | some xy =>
      obtain ⟨x, y⟩ := xy
      simp only [← word16Of_eq_some_iff]
      cases word16Of c.snx <;> cases word16Of c.sny <;> simp

/-- Settles O29: field by field, each by its own range. -/
theorem validRecord : Obligations.ValidRecord := by
  intro p cfg v
  obtain ⟨smx, smy, rx, ry, xy, irqMode, sensor⟩ := v
  cases cfg with
  | none => simp [validate]
  | some c =>
    have hfields : validate p (some c) = some ⟨smx, smy, rx, ry, xy, irqMode, sensor⟩ ↔
        screenMaxOf p c.smx = some smx ∧ screenMaxOf p c.smy = some smy ∧ c.rx = some rx ∧ c.ry = some ry ∧
          c.xy = some xy ∧ c.irqMode = some irqMode ∧ sensorOf p c = some sensor := by
      simp only [validate, bind, pure, Option.bind_some, Option.bind_eq_some_iff, Option.some.injEq,
        ValidCfg.mk.injEq]
      constructor
      · rintro ⟨_, hx, _, hy, _, hrx, _, hry, _, hxy, _, hmode, _, hsensor, rfl, rfl, rfl, rfl, rfl, rfl, rfl⟩
        exact ⟨hx, hy, hrx, hry, hxy, hmode, hsensor⟩
      · rintro ⟨hx, hy, hrx, hry, hxy, hmode, hsensor⟩
        exact ⟨_, hx, _, hy, _, hrx, _, hry, _, hxy, _, hmode, _, hsensor, rfl, rfl, rfl, rfl, rfl, rfl, rfl⟩
    rw [hfields, screenMaxOf_eq_some_iff, screenMaxOf_eq_some_iff, sensorOf_eq_some_iff]
    constructor
    · rintro ⟨⟨hx, hltx⟩, ⟨hy, hlty⟩, hrx, hry, hxy, hmode, hsensor⟩
      exact ⟨c, rfl, hx, hy, hltx, hlty, hrx, hry, hxy, hmode, hsensor⟩
    · rintro ⟨c', hc, hx, hy, hltx, hlty, hrx, hry, hxy, hmode, hsensor⟩
      cases hc
      exact ⟨⟨hx, hltx⟩, ⟨hy, hlty⟩, hrx, hry, hxy, hmode, hsensor⟩

/-- Where the sensor maxima come from the record, a valid one has them (R32). -/
theorem sensor_of_validate {p : Params} {cfg : Option CfgRecord} {v : ValidCfg} (h : validate p cfg = some v)
    (hsource : p.sensorMaxSource = .config) : v.sensor.isSome := by
  obtain ⟨c, -, -, -, -, -, -, -, -, -, hsensor⟩ := (validRecord p cfg v).mp h
  cases hv : v.sensor with
  | none => simp [hsource, hv] at hsensor
  | some xy => rfl

end Sys2Proof.Proofs.Records
end

/-! The invariant of the block: every step keeps it, and in it every step answers (44_lifecycle.md R225 and the step
lists, 10_state.md R22, R50). -/

section
namespace Sys2Proof.Proofs.Invariant

open Sys2Proof Sys2Proof.Machine Sys2Proof.Safety Sys2Proof.Proofs.Ticks Sys2Proof.Proofs.Location
  Sys2Proof.Proofs.Steps Sys2Proof.Proofs.Sequencer

/-! ## What is held -/

/-- The part of the invariant that speaks of the registers: what is held between operations and at each step label. -/
def Held (s : State) : Prop :=
  (s.step = none → Quiet s) ∧ ∀ l, s.step = some l → AtLabel l s ∧ LifeAt l s

theorem inv_iff (s : State) :
    Inv s ↔ Located s ∧ Held s ∧ (s.fault = true ↔ s.faultCause = .normalizerDivZero) := by
  constructor
  · rintro ⟨hidle, hat, hunit, hresult, hcause, hframe, hlife⟩
    refine ⟨⟨fun h => (hidle h).2, hunit, hresult, hframe, ?_⟩,
      ⟨fun h => (hidle h).1, fun l h => ⟨hat l h, hlife l h⟩⟩, hcause⟩
    intro v hv
    exact (hat _ hv).2 v rfl
  · rintro ⟨⟨hidle, hunit, hresult, hframe, -⟩, ⟨hquiet, hat⟩, hcause⟩
    exact ⟨fun h => ⟨hquiet h, hidle h⟩, fun l h => (hat l h).1, hunit, hresult, hcause, hframe,
      fun l h => (hat l h).2⟩

theorem held_at {t : State} {l : Label} (hstep : t.step = some l) (hat : AtLabel l t) (hlife : LifeAt l t) :
    Held t :=
  ⟨fun h => (nomatch hstep.symm.trans h), fun l' h => by cases hstep.symm.trans h; exact ⟨hat, hlife⟩⟩

theorem held_idle {t : State} (hstep : t.step = none) (hquiet : Quiet t) : Held t :=
  ⟨fun _ => hquiet, fun _ h => nomatch hstep.symm.trans h⟩

/-- What is held at a label does not depend on where the sequencer stands, on the calls, the other agents or the
trace. -/
theorem atLabel_frame (l : Label) (s : State) (step : Option Label) (unit : Option (UnitOp × TStep))
    (ur : Option UnitResult) (call : Option Call) (faultCause : FaultCause) (lastResult : ResultCode)
    (tx : Option (List Byte)) (hostReq : Option HostReq) (hostWait : List HostReq) (inbox : List Input)
    (trace : List Event) (clock : Nat) (portLog : List (BitVec 5 × BitVec 16)) (freeCount : Nat) :
    AtLabel l { s with
      step := step, unit := unit, ur := ur, call := call, faultCause := faultCause, lastResult := lastResult
      tx := tx, hostReq := hostReq, hostWait := hostWait, inbox := inbox, trace := trace, clock := clock
      portLog := portLog, freeCount := freeCount } = AtLabel l s := by
  cases l <;> rfl

theorem lifeAt_frame (l : Label) (s : State) (step : Option Label) (faultCause : FaultCause) (irqPend : Bool)
    (lastResult : ResultCode) (tx rx : Option (List Byte)) (hostReq : Option HostReq) (hostWait : List HostReq)
    (inbox : List Input) (trace : List Event) (clock : Nat) (portLog : List (BitVec 5 × BitVec 16))
    (freeCount : Nat) :
    LifeAt l { s with
      step := step, faultCause := faultCause, irqPend := irqPend, lastResult := lastResult, tx := tx, rx := rx
      hostReq := hostReq, hostWait := hostWait, inbox := inbox, trace := trace, clock := clock, portLog := portLog
      freeCount := freeCount } = LifeAt l s := by
  cases l <;> rfl

theorem held_taken {s : State} (h : Held s) (rest : List Input) : Held (taken rest s) :=
  ⟨h.1, fun l hl => by
    obtain ⟨hat, hlife⟩ := h.2 l hl
    exact ⟨(atLabel_frame l s ..).mpr hat, (lifeAt_frame l s ..).mpr hlife⟩⟩

theorem held_popTurn {s : State} (h : Held s) : Held s.popTurn := by
  rcases popTurn_cases s with ⟨b, rest, -, hpop⟩ | ⟨-, hpop⟩
  · rw [hpop]; exact held_taken h rest
  · rw [hpop]; exact h

/-- `end(r, v)` in a state that is quiet (R225). -/
theorem held_finish {s : State} (h : Quiet s) (r : ResultCode) (v : Option Bool) : Held (s.finish r v) := by
  obtain ⟨added, hfinish, -⟩ := finish_eq r v s
  rw [hfinish]
  exact held_idle rfl h

/-- A diagnostic changes no register. -/
theorem held_diag_finish {s : State} (h : Quiet s) (c : DiagCode) (info : DiagInfo) (r : ResultCode)
    (v : Option Bool) : Held ((s.diag c info).finish r v) :=
  held_finish (s := s.diag c info) h r v

/-! ## What the states between operations hold -/

theorem quiet_cold {s : State} (hlife : s.life = .cold) (hnone : NoneHeld s) (hfault : s.fault = false) : Quiet s :=
  ⟨.inl ⟨.inl hlife, hnone⟩, fun h => nomatch hfault.symm.trans h⟩

theorem quiet_detached {s : State} (hlife : s.life = .detached) (hnone : NoneHeld s) : Quiet s :=
  ⟨.inl ⟨.inr hlife, hnone⟩, fun _ => .inr hlife⟩

theorem quiet_ready {s : State} (hlife : s.life = .ready) (hall : AllHeld s) (hen : s.irqEn = true) : Quiet s :=
  ⟨.inr (.inl ⟨hlife, hall, hen⟩), fun _ => .inl hlife⟩

theorem quiet_suspended {s : State} (hlife : s.life = .suspended) (hmasked : MaskedHeld s) : Quiet s := by
  obtain ⟨hall, hen, hpend, hfault⟩ := hmasked
  exact ⟨.inr (.inr ⟨hlife, hall, hen, hpend⟩), fun h => nomatch hfault.symm.trans h⟩

theorem quiet_of_readyHeld {s : State} (h : ReadyHeld s) : Quiet s := by
  obtain ⟨hlife, hall, hen, -⟩ := h
  exact quiet_ready hlife hall hen

theorem noneHeld_of_quiet {s : State} (h : Quiet s) (hlife : s.life = .cold) : NoneHeld s := by
  rcases h.1 with ⟨-, hnone⟩ | ⟨hready, -⟩ | ⟨hsuspended, -⟩
  · exact hnone
  · exact nomatch hlife.symm.trans hready
  · exact nomatch hlife.symm.trans hsuspended

theorem allHeld_of_quiet {s : State} (h : Quiet s) (hlife : s.life = .ready) : AllHeld s ∧ s.irqEn = true := by
  rcases h.1 with ⟨hcold | hdetached, -⟩ | ⟨-, hall⟩ | ⟨hsuspended, -⟩
  · exact nomatch hlife.symm.trans hcold
  · exact nomatch hlife.symm.trans hdetached
  · exact hall
  · exact nomatch hlife.symm.trans hsuspended

theorem maskedHeld_of_quiet {s : State} (h : Quiet s) (hlife : s.life = .suspended) (hfault : s.fault = false) :
    MaskedHeld s := by
  rcases h.1 with ⟨hcold | hdetached, -⟩ | ⟨hready, -⟩ | ⟨-, hall, hen, hpend⟩
  · exact nomatch hlife.symm.trans hcold
  · exact nomatch hlife.symm.trans hdetached
  · exact nomatch hlife.symm.trans hready
  · exact ⟨hall, hen, hpend, hfault⟩

theorem idleLife_of_quiet {s : State} (h : Quiet s) : IdleLife s.life := by
  rcases h.1 with ⟨hcold | hdetached, -⟩ | ⟨hready, -⟩ | ⟨hsuspended, -⟩
  · exact .inl hcold
  · exact .inr (.inr (.inr hdetached))
  · exact .inr (.inl hready)
  · exact .inr (.inr (.inl hsuspended))

/-- A latched interrupt is an enabled one (R225 c). -/
theorem ready_of_pending {s : State} (h : Quiet s) (hpend : s.irqPend = true) : s.life = .ready := by
  rcases h.1 with ⟨-, -, -, -, -, hnot⟩ | ⟨hready, -⟩ | ⟨-, -, -, hnot⟩
  · exact nomatch hpend.symm.trans hnot
  · exact hready
  · exact nomatch hpend.symm.trans hnot

/-- Between operations the pin flag goes with the reset pin, as a release finds it. -/
theorem pins_of_quiet {s : State} (h : Quiet s) (hpins : s.res.pins = true) : s.res.pinRst.isSome := by
  rcases h.1 with ⟨-, hres, -⟩ | ⟨-, hall, -⟩ | ⟨-, hall, -⟩
  · rw [hres] at hpins; cases hpins
  · obtain ⟨-, -, -, -, hrst, -⟩ := hall; exact hrst
  · obtain ⟨-, -, -, -, hrst, -⟩ := hall; exact hrst

theorem resources_eq_empty {r : Resources} (hpins : r.pins = true → r.pinRst.isSome) (hirq : r.irqCfg = false)
    (hbus : r.bus = false) (hhost : r.host = false) (hint : r.pinInt = none) (hrst : r.pinRst = none) : r = {} := by
  obtain ⟨pins, irqCfg, bus, host, pinRst, pinInt⟩ := r
  cases hirq
  cases hbus
  cases hhost
  cases hint
  cases hrst
  cases pins with
  | false => rfl
  | true => cases hpins rfl

theorem abortedLife_of_abortsIn {at_ : StepName} {life : Life} (h : AbortsIn at_ life) : AbortedLife life := by
  cases at_ with
  | a3 | a4 | a6 => exact .inl h
  | a9 => exact .inr (.inl h)
  | a10 | a13 | a16 | a18 => exact .inr (.inr h)
  | _ => exact h.elim

/-- What the steps of ATTACH hold is what the abort path needs (R207). -/
theorem releasing_of_attaching {pinRst pinInt irqCfg bus fw width height : Bool} {s : State}
    (h : Attaching pinRst pinInt irqCfg bus false fw width height s) (hpins : pinInt = true → pinRst = true) :
    Releasing s ∧ s.fault = false ∧ s.res.host = false := by
  obtain ⟨hrst, -, hflag, -, -, hhost, -, -, -, -, hen, hpend, hfault⟩ := h
  exact ⟨⟨hen, hpend, fun hp => hrst.trans (hpins (hflag.symm.trans hp))⟩, hfault, hhost⟩

/-! ## The acceptance check -/

theorem refusalOf_eq_none_iff (op : Op) (s : State) :
    s.refusalOf op = none ↔ (s.fault = false ∨ op = .detach) ∧ op.legal s.life = true := by
  unfold State.refusalOf
  cases hfault : s.fault <;> cases hlegal : op.legal s.life <;> by_cases hop : op = .detach <;> simp [hop]

theorem held_accept {op : Op} {first : Label} {s : State} (hquiet : Quiet s)
    (hfirst : s.fault = false ∨ op = .detach → op.legal s.life = true →
      AtLabel first (s.goto first) ∧ LifeAt first (s.goto first)) :
    Held (s.accept op first) := by
  rcases accept_cases op first s with ⟨hnone, h⟩ | ⟨r, -, h⟩
  · obtain ⟨hfault, hlegal⟩ := (refusalOf_eq_none_iff op s).mp hnone
    obtain ⟨hat, hlife⟩ := hfirst hfault hlegal
    rw [h]
    exact held_at rfl hat hlife
  · rw [h]
    exact held_finish hquiet r none

/-! ## A step at its start -/

theorem held_releaseBegin {l next : Label} {held : Bool} {c : Call} {s : State} (hstep : s.step = some l)
    (hissue : AtLabel l (s.issue c) ∧ LifeAt l (s.issue c))
    (hgoto : held = false → AtLabel next (s.goto next) ∧ LifeAt next (s.goto next)) :
    Held (s.releaseBegin held c next) := by
  rcases releaseBegin_cases held c next s with ⟨-, h⟩ | ⟨hnot, h⟩
  · rw [h]; exact held_at hstep hissue.1 hissue.2
  · rw [h]; exact held_at rfl (hgoto hnot).1 (hgoto hnot).2

theorem held_intReleaseBegin {l next : Label} {s : State} (hstep : s.step = some l)
    (hissue : ∀ c, AtLabel l (s.issue c) ∧ LifeAt l (s.issue c))
    (hgoto : s.res.pinInt = none → AtLabel next (s.goto next) ∧ LifeAt next (s.goto next)) :
    Held (s.intReleaseBegin next) := by
  unfold State.intReleaseBegin
  split
  · exact held_at hstep (hissue _).1 (hissue _).2
  · next hnone => exact held_at rfl (hgoto hnone).1 (hgoto hnone).2

theorem held_lastReleaseBegin {l next : Label} {s : State} (hstep : s.step = some l)
    (hissue : ∀ c, AtLabel l (s.issue c) ∧ LifeAt l (s.issue c))
    (hgoto : s.res.pinRst = none →
      AtLabel next (s.releaseSession.goto next) ∧ LifeAt next (s.releaseSession.goto next)) :
    Held (s.lastReleaseBegin next) := by
  unfold State.lastReleaseBegin
  split
  · exact held_at hstep (hissue _).1 (hissue _).2
  · next hnone => exact held_at rfl (hgoto hnone).1 (hgoto hnone).2

theorem held_captureConfig {c : ValidCfg} {s : State} (hat : AtLabel (.a2 c) s) :
    AtLabel .a3 ((s.captureConfig c).goto .a3) := by
  obtain ⟨-, ⟨hres, hses, -, hen, hpend⟩, hfault, hsensor⟩ := hat
  have hcfg : CfgHeld ((s.captureConfig c).goto .a3) := by
    refine ⟨rfl, rfl, rfl, rfl, rfl, rfl, fun hsource => ?_⟩
    obtain ⟨xy, hxy⟩ := Option.isSome_iff_exists.mp (hsensor hsource)
    simp [State.captureConfig, hxy]
  refine ⟨?_, ?_, ?_, ?_, ?_, ?_, hcfg, ?_, ?_, ?_, hen, hpend, hfault⟩
  · exact congrArg (fun r : Resources => r.pinRst.isSome) hres
  · exact congrArg (fun r : Resources => r.pinInt.isSome) hres
  · exact congrArg Resources.pins hres
  · exact congrArg Resources.irqCfg hres
  · exact congrArg Resources.bus hres
  · exact congrArg Resources.host hres
  · exact congrArg (fun r : Session => r.fwVersion.isSome) hses
  · exact congrArg (fun r : Session => r.width.isSome) hses
  · exact congrArg (fun r : Session => r.height.isSome) hses

theorem held_checkConfig {cfg : Option CfgRecord} {s : State} (hat : AtLabel (.a1 cfg) s) :
    Held (s.checkConfig cfg) := by
  obtain ⟨hlife, hnone, hfault⟩ := hat
  unfold State.checkConfig
  split
  · exact held_diag_finish (quiet_cold hlife hnone hfault) ..
  · next c hvalid =>
    exact held_at rfl ⟨hlife, hnone, hfault, fun h => Records.sensor_of_validate hvalid h⟩ hlife

/-- LIFE while the read of the firmware version is in flight or has returned (R201, A10). -/
theorem lifeAt_a10 {s : State} (h : LifeAt .a10 s) (hbusy : ¬(s.unit = none ∧ s.ur = none)) : s.life = .queryInfo := by
  have hlife : s.life = if s.unit = none ∧ s.ur = none then .awaitHello else .queryInfo := h
  rw [hlife, if_neg hbusy]

theorem held_routeOpcode {s t : State} (hready : ReadyHeld s) (hframe : FrameInRx s) (h : s.routeOpcode = .ok t) :
    Held t := by
  obtain ⟨f, -, rfl⟩ := readReg_map_ok.mp h
  split_ifs
  · exact held_at rfl ⟨hready, hframe⟩ hready.1
  · exact held_at rfl ⟨hready, hframe⟩ hready.1
  · exact held_at rfl hready hready.1
  · exact held_at rfl hready hready.1
  · exact held_finish (quiet_of_readyHeld hready) ..

theorem held_beginReport {s t : State} (hready : ReadyHeld s) (h : s.beginReport = .ok t) : Held t := by
  obtain ⟨report, ⟨evs, rfl⟩ | rfl⟩ := beginReport_cases h
  · exact held_at rfl hready hready.1
  · obtain ⟨hlife, hall, hen, -⟩ := hready
    exact held_diag_finish (s := ({ s with lastReport := some report } : State).raiseFault .normalizerDivZero)
      (quiet_ready hlife hall hen) ..

section
variable {l : Label} {s t : State} (hstep : s.step = some l) (hat : AtLabel l s) (hlife : LifeAt l s)
include hstep hat hlife

/-- What a step of ATTACH or of its abort path does at its start (R201, R207). -/
theorem held_begin_attach (hop : l.name.op = .attach) (h : labelBegin l s = .ok t) : Held t := by
  cases l with
  | a0 cfg =>
    cases h
    refine held_accept hat fun hfault hcold => ?_
    have hcold : s.life = .cold := by simpa [Op.legal] using hcold
    exact ⟨⟨hcold, noneHeld_of_quiet hat hcold, by simpa using hfault⟩, hcold⟩
  | a1 cfg => cases h; exact held_checkConfig hat
  | a2 c => cases h; exact held_at rfl (held_captureConfig hat) hlife
  | a3 | a4 | a6 | a8 | a12 | a15 => cases h; exact held_at hstep hat hlife
  | a5 =>
    obtain ⟨m, -, rfl⟩ := readReg_map_ok.mp h
    exact held_at hstep hat hlife
  | a18 =>
    obtain ⟨x, -, h⟩ := readReg_bind_ok.mp h
    obtain ⟨y, -, rfl⟩ := readReg_map_ok.mp h
    exact held_at hstep hat hlife
  | a7 => cases h; exact held_at hstep hat (.inr ⟨rfl, rfl⟩)
  | a9 => cases h; exact held_at hstep hat (.inr ⟨rfl, rfl⟩)
  | a10 => cases h; exact held_at hstep hat (if_neg nofun).symm
  | a13 | a16 => cases h; exact held_at hstep hat hlife
  | a11 v =>
    cases h
    obtain ⟨hrst, hint, hpins, hirq, hbus, hhost, hcfg, -, hwidth, hheight, hmasked⟩ := hat
    exact held_at rfl ⟨hrst, hint, hpins, hirq, hbus, hhost, hcfg, rfl, hwidth, hheight, hmasked⟩ hlife
  | a14 v =>
    cases h
    obtain ⟨hrst, hint, hpins, hirq, hbus, hhost, hcfg, hfw, -, hheight, hmasked⟩ := hat
    exact held_at rfl ⟨hrst, hint, hpins, hirq, hbus, hhost, hcfg, hfw, rfl, hheight, hmasked⟩ hlife
  | a17 v =>
    cases h
    obtain ⟨hrst, hint, hpins, hirq, hbus, hhost, hcfg, hfw, hwidth, -, hmasked⟩ := hat
    exact held_at rfl ⟨hrst, hint, hpins, hirq, hbus, hhost, hcfg, hfw, hwidth, rfl, hmasked⟩ hlife
  | a19 =>
    cases h
    obtain ⟨hrst, hint, hpins, hirq, hbus, hhost, hcfg, hfw, hwidth, hheight, -, -, hfault⟩ := hat
    exact held_at rfl ⟨⟨hpins, hirq, hbus, hhost, hrst, hint, hcfg, hfw, hwidth, hheight⟩, rfl, hfault⟩ hlife
  | a20 =>
    cases h
    obtain ⟨hall, hen, -⟩ := hat
    exact held_finish (s := { s with life := .ready }) (quiet_ready rfl hall hen) ..
  | b1 at_ cause =>
    cases h
    obtain ⟨⟨-, -, hpins⟩, hfault, hhost⟩ := hat
    exact held_at rfl ⟨⟨rfl, rfl, hpins⟩, hfault, hhost⟩ (abortedLife_of_abortsIn hlife)
  | b2 =>
    cases h
    obtain ⟨hrel, hfault, hhost⟩ := hat
    exact held_releaseBegin hstep ⟨⟨hrel, hfault, hhost⟩, hlife⟩ fun hbus => ⟨⟨hrel, hfault, hhost, hbus⟩, hlife⟩
  | b3 =>
    cases h
    obtain ⟨hrel, hfault, hhost, hbus⟩ := hat
    exact held_releaseBegin hstep ⟨⟨hrel, hfault, hhost, hbus⟩, hlife⟩
      fun hirq => ⟨⟨hrel, hfault, hhost, hbus, hirq⟩, hlife⟩
  | b4 => cases h; exact held_releaseBegin hstep ⟨hat, hlife⟩ fun _ => ⟨hat, hlife⟩
  | b5 =>
    cases h
    obtain ⟨hrel, hfault, hhost, hbus, hirq⟩ := hat
    exact held_intReleaseBegin hstep (fun _ => ⟨⟨hrel, hfault, hhost, hbus, hirq⟩, hlife⟩)
      fun hint => ⟨⟨hrel, hfault, hhost, hbus, hirq, hint⟩, hlife⟩
  | b6 =>
    cases h
    refine held_lastReleaseBegin hstep (fun _ => ⟨hat, hlife⟩) fun hrst => ?_
    obtain ⟨⟨hen, hpend, hpins⟩, hfault, hhost, hbus, hirq, hint⟩ := hat
    have hres : s.res = {} := resources_eq_empty hpins hirq hbus hhost hint hrst
    exact ⟨⟨⟨by simp [State.releaseSession, hres], rfl, rfl, hen, hpend⟩, hfault⟩, hlife⟩
  | b7 => cases h; exact held_finish (s := { s with life := .detached }) (quiet_detached rfl hat.1) ..
  | _ => cases hop

/-- What a step of SUSPEND or RESUME does at its start (R210, R214). -/
theorem held_begin_power (hop : l.name.op = .suspend ∨ l.name.op = .resume) (h : labelBegin l s = .ok t) :
    Held t := by
  cases l with
  | s0 =>
    cases h
    refine held_accept hat fun hfault hready => ?_
    have hready : s.life = .ready := by simpa [Op.legal] using hready
    exact ⟨⟨hready, (allHeld_of_quiet hat hready).1, by simpa using hfault⟩, hready⟩
  | s1 =>
    cases h
    obtain ⟨-, hall, hfault⟩ := hat
    exact held_at rfl ⟨hall, rfl, rfl, hfault⟩ hlife
  | s2 | s3 | s4 | u1 | u2 | u3 | u4 | u5 | u6 => cases h; exact held_at hstep hat hlife
  | s5 => cases h; exact held_at rfl ⟨hat, rfl⟩ rfl
  | s6 => cases h; exact held_finish (quiet_suspended hat.2 hat.1) ..
  | u0 =>
    cases h
    refine held_accept hat fun hfault hsuspended => ?_
    have hsuspended : s.life = .suspended := by simpa [Op.legal] using hsuspended
    exact ⟨maskedHeld_of_quiet hat hsuspended (by simpa using hfault), hsuspended⟩
  | u7 =>
    cases h
    obtain ⟨hall, -, -, hfault⟩ := hat
    exact held_at rfl ⟨hall, rfl, hfault⟩ hlife
  | u8 =>
    cases h
    obtain ⟨hall, hen, hfault⟩ := hat
    exact held_at rfl ⟨hall, hen, hfault, rfl⟩ rfl
  | u9 =>
    cases h
    obtain ⟨hall, hen, -, hready⟩ := hat
    exact held_finish (quiet_ready hready hall hen) ..
  | _ => rcases hop with hop | hop <;> cases hop

/-- What a step of DETACH does at its start (R218, R219). -/
theorem held_begin_detach (hop : l.name.op = .detach) (h : labelBegin l s = .ok t) : Held t := by
  cases l with
  | x0 => cases h; exact held_accept hat fun _ _ => ⟨hat, hlife⟩
  | x1 =>
    cases h
    split
    · exact held_finish hat ..
    · next hnot =>
      refine held_at rfl hat ?_
      rcases hlife with hcold | hready | hsuspended | hdetached
      · exact .inl hcold
      · exact .inr (.inl hready)
      · exact .inr (.inr hsuspended)
      · exact absurd hdetached hnot
  | x2 => cases h; exact held_at rfl ⟨rfl, rfl, pins_of_quiet (s := s) hat⟩ hlife
  | x3 => cases h; exact held_releaseBegin hstep ⟨hat, hlife⟩ fun hbus => ⟨⟨hat, hbus⟩, hlife⟩
  | x4 =>
    cases h
    obtain ⟨hrel, hbus⟩ := hat
    exact held_releaseBegin hstep ⟨⟨hrel, hbus⟩, hlife⟩ fun hirq => ⟨⟨hrel, hbus, hirq⟩, hlife⟩
  | x5 =>
    cases h
    obtain ⟨hrel, hbus, hirq⟩ := hat
    exact held_releaseBegin hstep ⟨⟨hrel, hbus, hirq⟩, hlife⟩ fun hhost => ⟨⟨hrel, hbus, hirq, hhost⟩, hlife⟩
  | x6 =>
    cases h
    obtain ⟨hrel, hbus, hirq, hhost⟩ := hat
    exact held_intReleaseBegin hstep (fun _ => ⟨⟨hrel, hbus, hirq, hhost⟩, hlife⟩)
      fun hint => ⟨⟨hrel, hbus, hirq, hhost, hint⟩, hlife⟩
  | x7 =>
    cases h
    refine held_lastReleaseBegin hstep (fun _ => ⟨hat, hlife⟩) fun hrst => ?_
    obtain ⟨⟨hen, hpend, hpins⟩, hbus, hirq, hhost, hint⟩ := hat
    have hres : s.res = {} := resources_eq_empty hpins hirq hbus hhost hint hrst
    exact ⟨⟨by simp [State.releaseSession, hres], rfl, rfl, hen, hpend⟩, hlife⟩
  | x8 => cases h; exact held_finish (s := { s with life := .detached }) (quiet_detached rfl hat) ..
  | _ => cases hop

/-- What a step of FINGER_QUERY does at its start (R222). -/
theorem held_begin_finger (hop : l.name.op = .fingerQuery) (h : labelBegin l s = .ok t) : Held t := by
  cases l with
  | f0 =>
    cases h
    refine held_accept hat fun hfault hready => ?_
    have hready : s.life = .ready := by simpa [Op.legal] using hready
    obtain ⟨hall, hen⟩ := allHeld_of_quiet hat hready
    exact ⟨⟨hready, hall, hen, by simpa using hfault⟩, hready⟩
  | f1 => cases h; exact held_at hstep hat hlife
  | f2 r =>
    cases h
    obtain ⟨hready, hkind⟩ := hat
    rcases r with v | e
    · obtain ⟨b, rfl⟩ := hkind v rfl
      exact held_at rfl hready hlife
    · exact held_finish (quiet_of_readyHeld hready) ..
  | f3 v => cases h; exact held_finish (quiet_of_readyHeld hat) ..
  | _ => cases hop

/-- What a step of DISPATCH does at its start (R240). -/
theorem held_begin_dispatch (hop : l.name.op = .dispatch) (h : labelBegin l s = .ok t) : Held t := by
  cases l with
  | i1 => cases h; exact held_at rfl hat hlife
  | i2 | i4 => cases h; exact held_at hstep hat hlife
  | i3 acked =>
    cases h
    unfold State.checkAck
    split
    · exact held_diag_finish (quiet_of_readyHeld hat) ..
    · exact held_at rfl hat hlife
  | i5 => exact held_routeOpcode hat.1 hat.2 h
  | i6 => exact held_beginReport hat.1 h
  | i6e j evs =>
    cases h
    unfold State.emitEvents
    split
    · exact held_finish (quiet_of_readyHeld hat) ..
    · exact held_at hstep hat hlife
  | i7 =>
    obtain ⟨f, -, rfl⟩ := readReg_map_ok.mp h
    exact held_diag_finish (quiet_of_readyHeld hat.1) ..
  | i8 | i9 => cases h; exact held_diag_finish (quiet_of_readyHeld hat) ..
  | _ => cases hop

theorem held_begin (h : labelBegin l s = .ok t) : Held t := by
  cases hop : l.name.op with
  | idle => exact absurd hop (by cases l <;> nofun)
  | attach => exact held_begin_attach hstep hat hlife hop h
  | suspend => exact held_begin_power hstep hat hlife (.inl hop) h
  | resume => exact held_begin_power hstep hat hlife (.inr hop) h
  | detach => exact held_begin_detach hstep hat hlife hop h
  | fingerQuery => exact held_begin_finger hstep hat hlife hop h
  | dispatch => exact held_begin_dispatch hstep hat hlife hop h

end

/-! ## A step whose unit operation has returned -/

/-- A write of SUSPEND or RESUME changes only its own session register (R27, R28). -/
theorem held_writeReturned {next : Label} {s ok : State} {warning : DiagCode} (r : UnitResult)
    (hok : AtLabel next (ok.goto next) ∧ LifeAt next (ok.goto next))
    (herr : ∀ d, AtLabel next ((s.diag warning d).goto next) ∧ LifeAt next ((s.diag warning d).goto next)) :
    Held (s.writeReturned ok warning next r) := by
  rcases r with v | e
  · exact held_at rfl hok.1 hok.2
  · exact held_at rfl (herr _).1 (herr _).2

theorem held_return {op : UnitOp} {r : UnitResult} {s t : State} (hstep : s.step = some (UnitOp.caller op))
    (hur : s.ur = some r) (hat : AtLabel (UnitOp.caller op) s) (hlife : LifeAt (UnitOp.caller op) s)
    (hkind : ∀ v, r = .ok v → ReturnsKind op v) (h : labelReturn (UnitOp.caller op) r s = .ok t) : Held t := by
  cases op with
  | fwVerRead =>
    cases h
    have hquery : s.life = .queryInfo := lifeAt_a10 hlife fun hnone => nomatch hur.symm.trans hnone.2
    rcases r with v | e
    · obtain ⟨x, rfl⟩ := hkind v rfl
      exact held_at rfl hat hquery
    · exact held_at rfl (releasing_of_attaching hat id) hquery
  | widthRead =>
    cases h
    rcases r with v | e
    · obtain ⟨x, rfl⟩ := hkind v rfl
      exact held_at rfl hat hlife
    · exact held_at rfl (releasing_of_attaching hat id) hlife
  | heightRead =>
    cases h
    rcases r with v | e
    · obtain ⟨x, rfl⟩ := hkind v rfl
      exact held_at rfl hat hlife
    · exact held_at rfl (releasing_of_attaching hat id) hlife
  | powerWrite on => cases on <;> cases h <;> exact held_writeReturned r ⟨hat, hlife⟩ fun _ => ⟨hat, hlife⟩
  | packetWrite on => cases on <;> cases h <;> exact held_writeReturned r ⟨hat, hlife⟩ fun _ => ⟨hat, hlife⟩
  | powerRead =>
    cases h
    rcases r with v | e
    · obtain ⟨b, rfl⟩ := hkind v rfl
      cases b <;> exact held_at rfl hat hlife
    · exact held_at rfl hat hlife
  | packetRead =>
    cases h
    rcases r with v | e
    · obtain ⟨x, rfl⟩ := hkind v rfl
      unfold State.streamReturned State.streamReadBack
      dsimp only
      split <;> exact held_at rfl hat hlife
    · exact held_at rfl hat hlife
  | fingerRead =>
    cases h
    exact held_at rfl ⟨hat, hkind⟩ hlife

/-! ## An answer to a step's primitive -/

/-- A step whose answer gives nothing to decide. -/
theorem held_onDone {l : Label} {r : Reply} {s t : State} (hstep : s.step = some l) (hat : AtLabel l s)
    (hlife : LifeAt l s) (ht : Held t) : Held (r.onDone s t) := by
  cases r with
  | done => exact ht
  | _ => exact held_at hstep hat hlife

section
variable {l : Label} {c : Call} {d : Nat} {r : Reply} {s : State} (hstep : s.step = some l) (hcall : s.call = some c)
  (hfits : c.fits r = true) (hat : AtLabel l s) (hlife : LifeAt l s)
include hstep hat hlife

theorem held_resetPin (hl : l = .a3) (h : Option Handle) : Held ((s.answered c d r).resetPinAnswered h) := by
  subst hl
  cases h with
  | none => exact held_at rfl (releasing_of_attaching hat nofun) hlife
  | some h =>
    obtain ⟨-, hrest⟩ := hat
    exact held_at rfl ⟨rfl, hrest⟩ hlife

theorem held_intPin (hl : l = .a4) (h : Option Handle) : Held ((s.answered c d r).intPinAnswered h) := by
  subst hl
  cases h with
  | none => exact held_at rfl (releasing_of_attaching hat nofun) hlife
  | some h =>
    obtain ⟨hrst, -, -, hrest⟩ := hat
    exact held_at rfl ⟨hrst, rfl, rfl, hrest⟩ hlife

theorem held_bus (hl : l = .a6) (opened : Bool) : Held ((s.answered c d r).busAnswered opened) := by
  subst hl
  cases opened with
  | false => exact held_at rfl (releasing_of_attaching hat id) hlife
  | true =>
    obtain ⟨hrst, hint, hpins, hirq, -, hrest⟩ := hat
    exact held_at rfl ⟨hrst, hint, hpins, hirq, rfl, hrest⟩ (.inl ⟨rfl, hlife⟩)

theorem held_host (hl : l = .a18) (registered : Bool) : Held ((s.answered c d r).hostAnswered registered) := by
  subst hl
  cases registered with
  | false => exact held_at rfl (releasing_of_attaching hat id) hlife
  | true =>
    obtain ⟨hrst, hint, hpins, hirq, hbus, -, hrest⟩ := hat
    exact held_at rfl ⟨hrst, hint, hpins, hirq, hbus, rfl, hrest⟩ hlife

include hcall

/-- A9 answered: LIFE is AwaitHello, and A10 finds it so before its read starts (R203). -/
theorem held_hello (hl : l = .a9) (hunit : s.unit = none) (count : Int) (bytes : List Byte) :
    Held ((s.answered c d r).helloAnswered count bytes) := by
  subst hl
  have hawait : s.life = .awaitHello := by
    rcases hlife with ⟨hnone, -⟩ | ⟨-, hawait⟩
    · exact nomatch hcall.symm.trans hnone
    · exact hawait
  have ha10 : s.life = if s.unit = none ∧ (none : Option UnitResult) = none then .awaitHello else .queryInfo := by
    rw [if_pos ⟨hunit, rfl⟩, hawait]
  unfold State.helloAnswered State.helloFailed State.helloReceived
  dsimp only
  split_ifs
  · exact held_at rfl (releasing_of_attaching hat id) hawait
  · exact held_at rfl hat ha10
  · exact held_at rfl hat ha10
  · exact held_at rfl hat ha10

include hfits

/-- I4 answered: a failed receive ends the DISPATCH, a good one has put a whole frame into RX (R111, R246). -/
theorem held_frame (hl : l = .i4) (hframe : c = .busRecv s.par.lit.rptLen) {count : Int} {bytes : List Byte}
    (hr : r = .received count bytes) : Held ((s.answered c d r).frameReceived count bytes) := by
  subst hl
  subst hframe
  subst hr
  unfold State.frameReceived
  split_ifs with hcount
  · exact held_diag_finish (s := s.answered _ d _) (quiet_of_readyHeld hat) ..
  · have hlen : s.par.lit.rptLen ≤ bytes.length := by
      rcases (fits_received _ _ _).mp hfits with hne | hlen
      · exact absurd hne hcount
      · exact hlen
    refine held_at rfl ⟨hat, ?_⟩ hlife
    exact congrArg some (List.length_take_of_le hlen)

/-- What a step holds after the answer to its primitive. -/
theorem held_answer (hunit : s.unit = none) (hframe : l = .i4 → c = .busRecv s.par.lit.rptLen) :
    Held (labelAnswer l r (s.answered c d r)) := by
  cases l with
  | a3 =>
    cases r with
    | pin h => exact held_resetPin hstep hat hlife rfl h
    | _ => exact held_at hstep hat hlife
  | a4 =>
    cases r with
    | pin h => exact held_intPin hstep hat hlife rfl h
    | _ => exact held_at hstep hat hlife
  | a5 =>
    refine held_onDone hstep hat hlife ?_
    obtain ⟨hrst, hint, hpins, -, hrest⟩ := hat
    exact held_at rfl ⟨hrst, hint, hpins, rfl, hrest⟩ hlife
  | a6 =>
    cases r with
    | opened ok => exact held_bus hstep hat hlife rfl ok
    | _ => exact held_at hstep hat hlife
  | a7 =>
    rcases hlife with ⟨hnone, -⟩ | ⟨hpulse, hreset⟩
    · exact nomatch hcall.symm.trans hnone
    · obtain rfl : c = .pulseReset := Option.some.inj (hcall.symm.trans hpulse)
      cases r with
      | done => exact held_at rfl hat hreset
      | _ => cases hfits
  | a8 => exact held_onDone hstep hat hlife (held_at rfl hat (.inl ⟨rfl, hlife⟩))
  | a9 =>
    rcases hlife with ⟨hnone, -⟩ | hrecv
    · exact nomatch hcall.symm.trans hnone
    · obtain rfl : c = .busRecv s.par.lit.helloLen := Option.some.inj (hcall.symm.trans hrecv.1)
      cases r with
      | received count bytes => exact held_hello hstep hcall hat (.inr hrecv) rfl hunit count bytes
      | _ => cases hfits
  | a12 | a15 | s3 | u2 | u5 => exact held_onDone hstep hat hlife (held_at rfl hat hlife)
  | a18 =>
    cases r with
    | registered ok => exact held_host hstep hat hlife rfl ok
    | _ => exact held_at hstep hat hlife
  | b2 =>
    refine held_onDone hstep hat hlife ?_
    obtain ⟨hrel, hfault, hhost⟩ := hat
    exact held_at rfl ⟨hrel, hfault, hhost, rfl⟩ hlife
  | b3 =>
    refine held_onDone hstep hat hlife ?_
    obtain ⟨hrel, hfault, hhost, hbus⟩ := hat
    exact held_at rfl ⟨hrel, hfault, hhost, hbus, rfl⟩ hlife
  | b4 =>
    refine held_onDone hstep hat hlife ?_
    obtain ⟨hrel, hfault, hhost, hbus, hirq⟩ := hat
    exact held_at rfl ⟨hrel, hfault, rfl, hbus, hirq⟩ hlife
  | b5 =>
    refine held_onDone hstep hat hlife ?_
    obtain ⟨hrel, hfault, hhost, hbus, hirq⟩ := hat
    exact held_at rfl ⟨hrel, hfault, hhost, hbus, hirq, rfl⟩ hlife
  | b6 =>
    refine held_onDone hstep hat hlife (held_at rfl ?_ hlife)
    obtain ⟨⟨hen, hpend, -⟩, hfault, hhost, hbus, hirq, hint⟩ := hat
    exact ⟨⟨resources_eq_empty nofun hirq hbus hhost rfl rfl, rfl, rfl, hen, hpend⟩, hfault⟩
  | x3 => exact held_onDone hstep hat hlife (held_at rfl ⟨hat, rfl⟩ hlife)
  | x4 => exact held_onDone hstep hat hlife (held_at rfl ⟨hat.1, hat.2, rfl⟩ hlife)
  | x5 =>
    refine held_onDone hstep hat hlife ?_
    obtain ⟨hrel, hbus, hirq⟩ := hat
    exact held_at rfl ⟨hrel, hbus, hirq, rfl⟩ hlife
  | x6 =>
    refine held_onDone hstep hat hlife ?_
    obtain ⟨hrel, hbus, hirq, hhost⟩ := hat
    exact held_at rfl ⟨hrel, hbus, hirq, hhost, rfl⟩ hlife
  | x7 =>
    refine held_onDone hstep hat hlife (held_at rfl ?_ hlife)
    obtain ⟨⟨hen, hpend, -⟩, hbus, hirq, hhost, hint⟩ := hat
    exact ⟨resources_eq_empty nofun hirq hbus hhost rfl rfl, rfl, rfl, hen, hpend⟩
  | i2 =>
    cases r with
    | acked a => exact held_at rfl hat hlife
    | _ => exact held_at hstep hat hlife
  | i4 =>
    cases r with
    | received count bytes => exact held_frame hstep hcall hfits hat hlife rfl (hframe rfl) rfl
    | _ => exact held_at hstep hat hlife
  | i6e j evs =>
    refine held_onDone hstep hat hlife ?_
    rcases eventEmitted_cases j evs (s.answered c d r) with ⟨-, h⟩ | ⟨e, rest, -, h⟩
    · rw [h]; exact held_finish (s := s.answered c d r) (quiet_of_readyHeld hat) ..
    · rw [h]; exact held_at rfl hat hlife
  | _ => exact held_at hstep hat hlife

end

/-! ## A unit operation -/

/-- What the caller of a unit operation holds depends on no field that the unit operation writes (R130). -/
theorem atLabel_caller (op : UnitOp) (s : State) (unit : Option (UnitOp × TStep)) (ur : Option UnitResult)
    (call : Option Call) (tx rx : Option (List Byte)) (inbox : List Input) (trace : List Event) (clock : Nat) :
    AtLabel (UnitOp.caller op) { s with
      unit := unit, ur := ur, call := call, tx := tx, rx := rx, inbox := inbox, trace := trace, clock := clock } =
      AtLabel (UnitOp.caller op) s := by
  cases op with
  | powerWrite on => cases on <;> rfl
  | packetWrite on => cases on <;> rfl
  | _ => rfl

/-- LIFE at the caller of a unit operation that has started is QueryInfo in ATTACH, and its step's otherwise. -/
theorem lifeAt_caller {op : UnitOp} {s t : State} (h : LifeAt (UnitOp.caller op) s)
    (hbusy : s.unit ≠ none ∨ s.ur ≠ none)
    (hlife : t.life = s.life) (hbusy' : t.unit ≠ none ∨ t.ur ≠ none) : LifeAt (UnitOp.caller op) t := by
  cases op with
  | fwVerRead =>
    have hquery : s.life = .queryInfo := lifeAt_a10 h fun hnone =>
      hbusy.elim (fun hu => hu hnone.1) fun hr => hr hnone.2
    refine (hlife.trans hquery).trans (if_neg fun hnone => ?_).symm
    exact hbusy'.elim (fun hu => hu hnone.1) fun hr => hr hnone.2
  | powerWrite on => cases on <;> exact hlife.trans h
  | packetWrite on => cases on <;> exact hlife.trans h
  | _ => exact hlife.trans h

theorem held_unit {op : UnitOp} {u : TStep} {s : State} (h : Held s) (hl : Located s) (hunit : s.unit = some (op, u))
    (unit : Option (UnitOp × TStep)) (ur : Option UnitResult) (call : Option Call) (tx rx : Option (List Byte))
    (inbox : List Input) (trace : List Event) (clock : Nat) (hbusy : unit ≠ none ∨ ur ≠ none) :
    Held { s with
      unit := unit, ur := ur, call := call, tx := tx, rx := rx, inbox := inbox, trace := trace, clock := clock } := by
  obtain ⟨hstep, -, -⟩ := hl.unit op u hunit
  obtain ⟨hat, hlife⟩ := h.2 _ hstep
  exact held_at hstep ((atLabel_caller op s ..).mpr hat)
    (lifeAt_caller hlife (.inl (by rw [hunit]; nofun)) rfl hbusy)

theorem held_unitMove {op : UnitOp} {u : TStep} {s t : State} (h : Held s) (hl : Located s)
    (hunit : s.unit = some (op, u)) (hmove : UnitMove op s t) : Held t := by
  cases hmove with
  | @issue tx rx c =>
    exact held_unit h hl hunit s.unit s.ur (some c) tx rx s.inbox s.trace s.clock (.inl (by rw [hunit]; nofun))
  | @ret r => exact held_unit h hl hunit none (some r) s.call s.tx s.rx s.inbox s.trace s.clock (.inr nofun)

theorem held_unitAnswer {op : UnitOp} {u : TStep} {c : Call} {d : Nat} {r : Reply} {rest : List Input} {s t : State}
    (h : Held s) (hl : Located s) (hunit : s.unit = some (op, u))
    (hmove : UnitAnswerMove op ((taken rest s).answered c d r) t) : Held t := by
  cases hmove with
  | ignored => exact held_unit h hl hunit s.unit s.ur none s.tx s.rx rest _ _ (.inl (by rw [hunit]; nofun))
  | @goto tx rx u => exact held_unit h hl hunit (some (op, u)) s.ur none tx rx rest _ _ (.inl nofun)
  | @ret tx rx r => exact held_unit h hl hunit none (some r) none tx rx rest _ _ (.inr nofun)

/-! ## Every tick -/

theorem tick_held {s t : State} (h : Held s) (hl : Located s) (htick : tick s = .moved t) : Held t := by
  cases tick_move htick with
  | dropped call next => exact held_taken h _
  | unitAnswered call next fits unit move => exact held_unitAnswer h hl unit move
  | @labelAnswered c d r rest l call next fits unit step =>
    obtain ⟨hat, hlife⟩ := (held_taken h rest).2 l step
    refine held_answer (s := taken rest s) step call fits hat hlife unit ?_
    rintro rfl
    exact hl.frame step c call
  | idleAnswered call next unit step => exact nomatch call.symm.trans (hl.idle step)
  | unitStepped call unit move =>
    exact held_unitMove (held_popTurn h) (located_popTurn hl) (by simpa using unit) move
  | @returned l r t call unit step ur move =>
    obtain ⟨op, hcaller, -, -, hkind⟩ := hl.result r ur
    obtain rfl : l = UnitOp.caller op := Option.some.inj (step.symm.trans hcaller)
    have hstep : s.popTurn.step = some (UnitOp.caller op) := by simpa using step
    obtain ⟨hat, hlife⟩ := (held_popTurn h).2 _ hstep
    exact held_return hstep (by simpa using ur) hat hlife hkind move
  | @begun l t call unit step ur move =>
    have hstep : s.popTurn.step = some l := by simpa using step
    obtain ⟨hat, hlife⟩ := (held_popTurn h).2 _ hstep
    exact held_begin hstep hat hlife move

/-- A fault comes and goes with its cause (R35). -/
theorem progress_cause {s t : State} (h : Progress s t) (hs : s.fault = true ↔ s.faultCause = .normalizerDivZero) :
    t.fault = true ↔ t.faultCause = .normalizerDivZero := by
  rcases h.fault with ⟨hfault, hcause⟩ | ⟨hfault, hcause⟩
  · rw [hfault, hcause]; exact hs
  · exact ⟨fun _ => hcause, fun _ => hfault⟩

theorem tick_inv {s t : State} (h : Inv s) (htick : tick s = .moved t) : Inv t := by
  obtain ⟨hl, hheld, hcause⟩ := (inv_iff s).mp h
  exact (inv_iff t).mpr ⟨tick_located hl htick, tick_held hheld hl htick, progress_cause (tick_progress htick) hcause⟩

end Sys2Proof.Proofs.Invariant
end

/-! The invariant of the block over whole steps: it holds at reset, every step keeps it, and in it every step answers
(44_lifecycle.md R225, 10_state.md R50). -/

section
namespace Sys2Proof.Proofs.Invariant

open Sys2Proof Sys2Proof.Machine Sys2Proof.Safety Sys2Proof.Proofs.Ticks Sys2Proof.Proofs.Location
  Sys2Proof.Proofs.Steps Sys2Proof.Proofs.Sequencer

/-! ## The moves of the other agents -/

/-- The invariant reads no field that belongs to the other agents. -/
theorem inv_frame {s : State} (h : Inv s) (lastResult : ResultCode) (hostReq : Option HostReq)
    (hostWait : List HostReq) (inbox : List Input) (trace : List Event) (portLog : List (BitVec 5 × BitVec 16))
    (freeCount : Nat) :
    Inv { s with
      lastResult := lastResult, hostReq := hostReq, hostWait := hostWait, inbox := inbox, trace := trace
      portLog := portLog, freeCount := freeCount } := by
  obtain ⟨hl, hheld, hcause⟩ := (inv_iff s).mp h
  refine (inv_iff _).mpr ⟨located_congr hl rfl rfl rfl rfl rfl rfl, ⟨hheld.1, fun l hstep => ?_⟩, hcause⟩
  obtain ⟨hat, hlife⟩ := hheld.2 l hstep
  exact ⟨(atLabel_frame l s ..).mpr hat, (lifeAt_frame l s ..).mpr hlife⟩

/-- Nothing of the sequencer is in flight. -/
theorem inv_rest {t : State} (hstep : t.step = none) (hunit : t.unit = none) (hur : t.ur = none) (hcall : t.call = none)
    (hquiet : Quiet t) (hcause : t.fault = true ↔ t.faultCause = .normalizerDivZero) : Inv t :=
  (inv_iff t).mpr ⟨⟨fun _ => hcall, fun _ _ h => (nomatch hunit.symm.trans h), fun _ h => (nomatch hur.symm.trans h),
    fun h => (nomatch hstep.symm.trans h), fun _ h => (nomatch hstep.symm.trans h)⟩, held_idle hstep hquiet, hcause⟩

theorem ur_of_rest {s : State} (h : Located s) (hstep : s.step = none) : s.ur = none := by
  cases hur : s.ur with
  | none => rfl
  | some r =>
    obtain ⟨op, hcaller, -⟩ := h.result r hur
    exact nomatch hstep.symm.trans hcaller

theorem latchIrq_of_masked {s : State} (hen : s.irqEn = false) : s.latchIrq = s := by
  have hpend : (s.irqPend || (s.irqEn && !s.fault)) = s.irqPend := by simp [hen]
  unfold State.latchIrq
  rw [hpend]

theorem quiet_latchIrq {s : State} (h : Quiet s) : Quiet s.latchIrq := by
  cases hen : s.irqEn with
  | false => rw [latchIrq_of_masked hen]; exact h
  | true =>
    rcases h.1 with ⟨-, -, -, -, hnot, -⟩ | hready | ⟨-, -, hnot, -⟩
    · exact nomatch hen.symm.trans hnot
    · exact ⟨.inr (.inl hready), h.2⟩
    · exact nomatch hen.symm.trans hnot

/-- A label at which the interrupt is enabled holds nothing of the latch (R34). -/
theorem atLabel_latchIrq {l : Label} {s : State} (h : AtLabel l s) : AtLabel l s.latchIrq := by
  cases hen : s.irqEn with
  | false => rw [latchIrq_of_masked hen]; exact h
  | true =>
    cases l with
    | a0 | s0 | u0 | x0 | x1 | x2 | f0 => exact quiet_latchIrq (s := s) h
    | a1 | a2 =>
      obtain ⟨-, ⟨-, -, -, hnot, -⟩, -⟩ := h
      exact nomatch hen.symm.trans hnot
    | a3 | a4 | a5 | a6 | a7 | a8 | a9 | a10 | a11 | a12 | a13 | a14 | a15 | a16 | a17 | a18 | a19 =>
      obtain ⟨-, -, -, -, -, -, -, -, -, -, hnot, -⟩ := h
      exact nomatch hen.symm.trans hnot
    | b1 | b2 | b3 | b4 | b5 | b6 | x4 | x5 | x6 | x7 =>
      obtain ⟨⟨hnot, -⟩, -⟩ := h
      exact nomatch hen.symm.trans hnot
    | x3 =>
      obtain ⟨hnot, -⟩ := h
      exact nomatch hen.symm.trans hnot
    | b7 =>
      obtain ⟨⟨-, -, -, hnot, -⟩, -⟩ := h
      exact nomatch hen.symm.trans hnot
    | x8 =>
      obtain ⟨-, -, -, hnot, -⟩ := h
      exact nomatch hen.symm.trans hnot
    | s2 | s3 | s4 | s5 | u1 | u2 | u3 | u4 | u5 | u6 | u7 =>
      obtain ⟨-, hnot, -⟩ := h
      exact nomatch hen.symm.trans hnot
    | s6 =>
      obtain ⟨⟨-, hnot, -⟩, -⟩ := h
      exact nomatch hen.symm.trans hnot
    | _ => exact h

theorem inv_latchIrq {s : State} (h : Inv s) : Inv s.latchIrq := by
  obtain ⟨hl, hheld, hcause⟩ := (inv_iff s).mp h
  refine (inv_iff _).mpr ⟨located_congr hl rfl rfl rfl rfl rfl rfl, ⟨fun hstep => quiet_latchIrq (hheld.1 hstep), ?_⟩,
    hcause⟩
  intro l hstep
  obtain ⟨hat, hlife⟩ := hheld.2 l hstep
  exact ⟨atLabel_latchIrq hat, (lifeAt_frame l s ..).mpr hlife⟩

theorem inv_blockReset (s : State) : Inv s.blockReset :=
  inv_rest rfl rfl rfl rfl (quiet_cold rfl ⟨rfl, rfl, rfl, rfl, rfl⟩ rfl) ⟨nofun, nofun⟩

theorem inv_postRequest {s : State} (h : Inv s) (q : HostReq) : Inv (s.postRequest q) := by
  unfold State.postRequest
  split
  · exact inv_frame h s.lastResult (some q) s.hostWait s.inbox s.trace s.portLog s.freeCount
  · exact inv_frame h s.lastResult s.hostReq (s.hostWait ++ [q]) s.inbox s.trace s.portLog s.freeCount

theorem inv_taken {s : State} (h : Inv s) (rest : List Input) : Inv (taken rest s) :=
  inv_frame h s.lastResult s.hostReq s.hostWait rest s.trace s.portLog s.freeCount

theorem inv_takePort {s : State} (h : Inv s) (i : Instr) : Inv (s.takePort i) := by
  obtain ⟨q, moves, n, hport⟩ := Arbiter.takePort_frame i s
  rw [hport]
  exact inv_frame h s.lastResult q s.hostWait moves s.trace s.portLog n

theorem inv_rejectReserved {s : State} (h : Inv s) (hrest : s.atRest = true) : Inv s.rejectReserved := by
  obtain ⟨hl, hheld, hcause⟩ := (inv_iff s).mp h
  obtain ⟨hstep, hunit, hcall⟩ := (atRest_iff s).mp hrest
  exact inv_rest hstep hunit (ur_of_rest (s := s) hl hstep) hcall (hheld.1 hstep) hcause

theorem takePort_atRest {i : Instr} {s : State} (hrest : s.atRest = true) : (s.takePort i).atRest = true := by
  obtain ⟨q, moves, n, hport⟩ := Arbiter.takePort_frame i s
  rw [hport]
  exact hrest

theorem outside_inv {s t : State} (h : Inv s) (hmove : Outside s t) : Inv t := by
  cases hmove with
  | @hostWrites q w => exact inv_frame h s.lastResult (some q) w s.inbox s.trace s.portLog s.freeCount
  | request next => exact inv_postRequest (inv_taken h _) _
  | reset next => exact inv_blockReset _
  | @portRead rn draw rest next => exact inv_frame h s.lastResult s.hostReq s.hostWait rest s.trace _ s.freeCount
  | asserted next => exact inv_latchIrq (inv_taken h _)
  | stray rest => exact inv_taken h _
  | reserved rest => exact inv_rejectReserved (inv_takePort h _) (takePort_atRest rest)

/-! ## The start of an operation -/

/-- Step 0 holds what held between operations (R200). -/
theorem held_firstLabel {i : Instr} {l : Label} {s : State} (hfirst : firstLabel i = some l) (h : Quiet s) :
    AtLabel l s ∧ LifeAt l s := by
  have hlife := idleLife_of_quiet h
  cases i <;> cases hfirst <;> exact ⟨h, hlife⟩

theorem inv_takeRequest {i : Instr} {l : Label} {s : State} (h : Inv s) (hrest : s.atRest = true)
    (hfirst : firstLabel i = some l) : Inv (s.takeRequest l) := by
  obtain ⟨-, hheld, hcause⟩ := (inv_iff s).mp h
  obtain ⟨hstep, hunit, hcall⟩ := (atRest_iff s).mp hrest
  have hquiet : Quiet (s.takeRequest l) := hheld.1 hstep
  obtain ⟨hat, hlife⟩ := held_firstLabel hfirst hquiet
  exact (inv_iff _).mpr ⟨located_goto (s := { s with rx := none }) hunit hcall
    (finger_of_plain (firstLabel_plain hfirst)), held_at rfl hat hlife, hcause⟩

/-- A DISPATCH starts only in Ready and without a fault (R225 c, R240). -/
theorem inv_enterDispatch {s : State} (h : Inv s) (hrest : s.atRest = true) (hpending : s.dispatchPending = true) :
    Inv s.popTurn.enterDispatch := by
  obtain ⟨-, hheld, hcause⟩ := (inv_iff s).mp h
  obtain ⟨hstep, hunit, hcall⟩ := (atRest_iff s).mp hrest
  obtain ⟨hpend, hfault⟩ := (dispatchPending_iff s).mp hpending
  have hquiet := hheld.1 hstep
  have hready := ready_of_pending hquiet hpend
  obtain ⟨hall, hen⟩ := allHeld_of_quiet hquiet hready
  have hat : AtLabel .i1 s := ⟨hready, hall, hen, hfault⟩
  refine (inv_iff _).mpr ⟨located_enterDispatch hrest, ?_, by simpa [State.enterDispatch] using hcause⟩
  rcases popTurn_cases s with ⟨b, moves, -, hpop⟩ | ⟨-, hpop⟩
  · rw [hpop]; exact held_at rfl hat hready
  · rw [hpop]; exact held_at rfl hat hready

theorem arbitrate_inv {s : State} (h : Inv s) : Inv s.arbitrate.2 := by
  rcases arbitrate_state s with hsame | hcount
  · rw [hsame]; exact h
  · rw [hcount]; exact inv_frame h s.lastResult s.hostReq s.hostWait s.inbox s.trace s.portLog _

theorem arbitrate_pending (s : State) : s.arbitrate.2.dispatchPending = s.dispatchPending := by
  rcases arbitrate_state s with h | h
  · rw [h]
  · rw [h]
    rfl

theorem starts_inv {s t : State} (h : Inv s) (hstart : Starts s t) : Inv t := by
  cases hstart with
  | request rest first => exact inv_takeRequest (inv_takePort h _) (takePort_atRest rest) first
  | pending rest pending =>
    exact inv_enterDispatch (arbitrate_inv h) (arbitrate_atRest rest) ((arbitrate_pending s).trans pending)
  | asserted rest pending => exact inv_enterDispatch (inv_latchIrq (inv_taken h _)) rest pending

/-- Settles O52: ticks, the moves of the other agents and the starts of operations each keep the invariant. -/
theorem invIsKept : Obligations.InvIsKept := fun _ _ h hstep =>
  step_keeps (P := Inv) (fun _ _ => tick_inv) (fun _ => outside_inv) (fun _ => starts_inv) h hstep

/-- Settles O51: reset is a rest in Cold with nothing held. -/
theorem invAtReset : Obligations.InvAtReset := inv_blockReset State.reset

/-! ## No step faults -/

/-- With everything held the normalizer reads no register at ⊥ (R180, R186). -/
theorem normalize_answers {s : State} (h : AllHeld s) (x y : Nat) : ∃ e, s.normalize x y = .ok e := by
  obtain ⟨-, -, -, -, -, -, ⟨hsmx, hsmy, hrx, hry, hxy, -, hsensor⟩, -, hwidth, hheight⟩ := h
  obtain ⟨smx, hsmx⟩ := Option.isSome_iff_exists.mp hsmx
  obtain ⟨smy, hsmy⟩ := Option.isSome_iff_exists.mp hsmy
  obtain ⟨fx, hrx⟩ := Option.isSome_iff_exists.mp hrx
  obtain ⟨fy, hry⟩ := Option.isSome_iff_exists.mp hry
  obtain ⟨fxy, hxy⟩ := Option.isSome_iff_exists.mp hxy
  obtain ⟨nx, ny, hmax⟩ : ∃ nx ny, SensorMax s nx ny := by
    cases hsource : s.par.sensorMaxSource with
    | queried =>
      obtain ⟨w, hw⟩ := Option.isSome_iff_exists.mp hwidth
      obtain ⟨g, hg⟩ := Option.isSome_iff_exists.mp hheight
      exact ⟨w.toNat, g.toNat, by simp [SensorMax, hsource, hw, hg]⟩
    | config =>
      obtain ⟨hsnx, hsny⟩ := hsensor hsource
      obtain ⟨w, hw⟩ := Option.isSome_iff_exists.mp hsnx
      obtain ⟨g, hg⟩ := Option.isSome_iff_exists.mp hsny
      exact ⟨w.toNat, g.toNat, by simp [SensorMax, hsource, hw, hg]⟩
  by_cases hzero : nx = 0 ∨ ny = 0
  · exact ⟨_, Normalizer.normalize_of_sensorMax_zero hmax hzero x y⟩
  · obtain ⟨hx, hy⟩ := not_or.mp hzero
    exact ⟨_, Normalizer.normalize_of_sensorMax_ne_zero hmax hx hy ⟨hsmx, hsmy, hrx, hry, hxy⟩ x y⟩

theorem pointEvents_answers {s : State} (h : AllHeld s) (pts : List TouchPoint) : ∃ e, s.pointEvents pts = .ok e := by
  induction pts with
  | nil => exact ⟨_, rfl⟩
  | cons p ps ih =>
    unfold State.pointEvents
    split
    · exact ih
    · next x y _ =>
      obtain ⟨e, he⟩ := normalize_answers h x.toNat y.toNat
      obtain ⟨evs, hevs⟩ := ih
      rw [he, hevs]
      cases e <;> cases evs <;> exact ⟨_, rfl⟩

theorem reportEvents_answers {s : State} (h : AllHeld s) (rep : Report) : ∃ e, s.reportEvents rep = .ok e := by
  unfold State.reportEvents
  split
  · exact ⟨_, rfl⟩
  · obtain ⟨e, he⟩ := pointEvents_answers h rep.pts
    rw [he]
    cases e <;> exact ⟨_, rfl⟩

theorem rx_of_frameInRx {s : State} (h : FrameInRx s) : ∃ f, s.rx = some f := by
  obtain ⟨f, hf, -⟩ := Option.map_eq_some_iff.mp h
  exact ⟨f, hf⟩

/-- At no label does a step's start read a register at ⊥ (R13, R50). -/
theorem labelBegin_answers {l : Label} {s : State} (hat : AtLabel l s) : ∃ t, labelBegin l s = .ok t := by
  cases l with
  | a5 =>
    obtain ⟨-, -, -, -, -, -, ⟨-, -, -, -, -, hmode, -⟩, -⟩ := hat
    obtain ⟨m, hm⟩ := Option.isSome_iff_exists.mp hmode
    exact ⟨_, readReg_map_ok.mpr ⟨m, hm, rfl⟩⟩
  | a18 =>
    obtain ⟨-, -, -, -, -, -, ⟨hsmx, hsmy, -⟩, -⟩ := hat
    obtain ⟨x, hx⟩ := Option.isSome_iff_exists.mp hsmx
    obtain ⟨y, hy⟩ := Option.isSome_iff_exists.mp hsmy
    exact ⟨_, readReg_bind_ok.mpr ⟨x, hx, readReg_map_ok.mpr ⟨y, hy, rfl⟩⟩⟩
  | i5 =>
    obtain ⟨f, hf⟩ := rx_of_frameInRx hat.2
    exact ⟨_, readReg_map_ok.mpr ⟨f, hf, rfl⟩⟩
  | i6 =>
    obtain ⟨⟨-, hall, -⟩, hframe⟩ := hat
    obtain ⟨f, hf⟩ := rx_of_frameInRx hframe
    obtain ⟨e, he⟩ := reportEvents_answers (s := { s with lastReport := some (decodeReport s.par f) }) hall
      (decodeReport s.par f)
    exact ⟨_, readReg_bind_ok.mpr ⟨f, hf, by dsimp only; rw [he]; rfl⟩⟩
  | i7 =>
    obtain ⟨f, hf⟩ := rx_of_frameInRx hat.2
    exact ⟨_, readReg_map_ok.mpr ⟨f, hf, rfl⟩⟩
  | _ => exact ⟨_, rfl⟩

theorem labelReturn_answers (op : UnitOp) (r : UnitResult) (s : State) :
    ∃ t, labelReturn (UnitOp.caller op) r s = .ok t := by
  cases op with
  | powerWrite on => cases on <;> exact ⟨_, rfl⟩
  | packetWrite on => cases on <;> exact ⟨_, rfl⟩
  | _ => exact ⟨_, rfl⟩

theorem unitStep_answers {op : UnitOp} {u : TStep} {s : State} (hrx : u = .t4 → s.rx.isSome) :
    ∃ t, s.unitStep op u = .ok t := by
  cases u with
  | t4 =>
    obtain ⟨f, hf⟩ := Option.isSome_iff_exists.mp (hrx rfl)
    exact ⟨_, readReg_map_ok.mpr ⟨f, hf, rfl⟩⟩
  | _ => exact ⟨_, rfl⟩

theorem tick_never_faults {s : State} (h : Inv s) (f : Fault) : tick s ≠ .fault f := by
  intro htick
  obtain ⟨hl, hheld, -⟩ := (inv_iff s).mp h
  obtain ⟨-, hadvance⟩ := tick_fault_cases htick
  rcases advance_cases hadvance with ⟨op, u, hunit, hmove⟩ | ⟨l, r, -, hstep, hur, hmove⟩ | ⟨l, -, hstep, -, hmove⟩
  · obtain ⟨-, -, hrx⟩ := (located_popTurn hl).unit op u hunit
    obtain ⟨t, ht⟩ := unitStep_answers (op := op) hrx
    exact nomatch hmove.trans ht
  · obtain ⟨op, hcaller, -⟩ := (located_popTurn hl).result r hur
    obtain rfl : l = UnitOp.caller op := Option.some.inj (hstep.symm.trans hcaller)
    obtain ⟨t, ht⟩ := labelReturn_answers op r s.popTurn
    exact nomatch hmove.trans ht
  · obtain ⟨t, ht⟩ := labelBegin_answers ((held_popTurn hheld).2 l hstep).1
    exact nomatch hmove.trans ht

theorem run_answers {going : State → Bool} {n : Nat} {s : State} (h : Inv s) : ∃ t, run going n s = .next t := by
  cases hrun : run going n s with
  | next t => exact ⟨t, rfl⟩
  | fault f =>
    obtain ⟨a, ha, hfault⟩ := run_faults (fun _ _ _ hab ha => tick_inv ha hab) h hrun
    exact absurd hfault (tick_never_faults ha f)
  | refused r => exact absurd hrun run_never_refuses

/-- Settles O53: a step that is no move of another agent is a run, and no tick of a run faults. -/
theorem stepAlwaysAnswers : Obligations.StepAlwaysAnswers := by
  intro s h
  have his := step_is s
  generalize step s = out at his
  cases his with
  | outside move => exact ⟨_, rfl⟩
  | starts start => exact run_answers (starts_inv h start)
  | ticks busy first =>
    rcases first with rfl | hmoved
    · exact run_answers h
    · exact run_answers (tick_inv h hmoved)

end Sys2Proof.Proofs.Invariant
end

/-! Properties of every step that follow from what a step can be (10_state.md R35, 20_memory.md R67, 30_encoding.md
R94, 44_lifecycle.md R206, R225, 70_reset_and_hazards.md R300). -/

section
namespace Sys2Proof.Proofs.Steps

open Sys2Proof Sys2Proof.Machine Sys2Proof.Safety Sys2Proof.Proofs.Ticks Sys2Proof.Proofs.Sequencer
  Sys2Proof.Proofs.Location

/-! ## What the moves of the other agents leave alone -/

/-- A move of another agent touches no event but the answer to a reserved request, no call, no clock and no
parameter. -/
theorem outside_frame {s t : State} (h : Outside s t) :
    t.par = s.par ∧ t.clock = s.clock ∧ (∃ added, t.trace = s.trace ++ added ∧ ∀ c r, Event.call c r ∉ added) ∧
      (t.call = s.call ∨ t.call = none) := by
  have hnil : ∃ added, s.trace = s.trace ++ added ∧ ∀ c r, Event.call c r ∉ added :=
    ⟨[], (List.append_nil _).symm, nofun⟩
  cases h with
  | hostWrites => exact ⟨rfl, rfl, hnil, .inl rfl⟩
  | request => unfold State.postRequest; split <;> exact ⟨rfl, rfl, hnil, .inl rfl⟩
  | reset => exact ⟨rfl, rfl, hnil, .inr rfl⟩
  | portRead => exact ⟨rfl, rfl, hnil, .inl rfl⟩
  | asserted => exact ⟨rfl, rfl, hnil, .inl rfl⟩
  | stray => exact ⟨rfl, rfl, hnil, .inl rfl⟩
  | @reserved i =>
    obtain ⟨q, moves, n, hport⟩ := Arbiter.takePort_frame i s
    rw [hport]
    refine ⟨rfl, rfl, ⟨[.respond .badRequest none], rfl, ?_⟩, .inl rfl⟩
    intro c r hmem
    cases List.mem_singleton.mp hmem

/-- The start of an operation writes neither trace nor clock nor parameters. -/
theorem starts_frame {s t : State} (h : Starts s t) :
    t.par = s.par ∧ t.clock = s.clock ∧ t.trace = s.trace ∧ t.call = none ∧ t.fault = s.fault ∧
      t.faultCause = s.faultCause := by
  cases h with
  | @request i l rest =>
    obtain ⟨-, -, hcall⟩ := (atRest_iff s).mp rest
    obtain ⟨q, moves, n, hport⟩ := Arbiter.takePort_frame i s
    rw [hport]
    exact ⟨rfl, rfl, rfl, hcall, rfl, rfl⟩
  | pending rest =>
    obtain ⟨-, -, hcall⟩ := (atRest_iff s).mp rest
    obtain ⟨moves, n, hchoice⟩ := Arbiter.arbitrate_popTurn s
    rw [hchoice]
    exact ⟨rfl, rfl, rfl, hcall, rfl, rfl⟩
  | @asserted moves rest =>
    obtain ⟨-, -, hcall⟩ := (atRest_iff s).mp rest
    simp only [State.enterDispatch, State.goto_par, State.goto_clock, State.goto_trace, State.goto_call,
      State.goto_fault, State.goto_faultCause, State.popTurn_par, State.popTurn_clock, State.popTurn_trace,
      State.popTurn_call, State.popTurn_fault, State.popTurn_faultCause]
    exact ⟨rfl, rfl, rfl, hcall, rfl, rfl⟩

/-! ## The trace and the clock (R67, R300) -/

/-- Settles O49: the trace is extended, the clock moves on and the parameters stay, in ticks, starts and other moves. -/
theorem traceAndTimeOnlyGrow : Obligations.TraceAndTimeOnlyGrow := by
  intro s t hstep
  refine step_keeps (P := fun u => s.trace <+: u.trace ∧ s.clock ≤ u.clock ∧ u.par = s.par) ?_ ?_ ?_
    ⟨List.prefix_rfl, le_rfl, rfl⟩ hstep
  · rintro a b ⟨htrace, hclock, hpar⟩ htick
    have hp := tick_progress htick
    obtain ⟨added, hadded, -⟩ := hp.trace
    exact ⟨hadded ▸ htrace.trans (List.prefix_append _ _), hclock.trans hp.clock, hp.par.trans hpar⟩
  · rintro u - hmove
    obtain ⟨hpar, hclock, ⟨added, hadded, -⟩, -⟩ := outside_frame hmove
    exact ⟨hadded ▸ List.prefix_append _ _, hclock.ge, hpar⟩
  · rintro u - hstart
    obtain ⟨hpar, hclock, htrace, -⟩ := starts_frame hstart
    exact ⟨htrace ▸ List.prefix_rfl, hclock.ge, hpar⟩

/-! ## What is sent (R94) -/

/-- Nothing but frames of the message catalog gets onto the bus, call or event. -/
theorem sendsOnly_of_progress {frames : List (List Byte)} {s t : State}
    (hframes : ∀ op : UnitOp, op.frame s.par ∈ frames)
    (hs : SendsOnly frames s) (h : Progress s t) : SendsOnly frames t := by
  have hcalls : ∀ f, s.call = some (.busSend f) ∨ Calls s (.busSend f) → f ∈ frames := by
    rintro f (hcall | ⟨op, rfl⟩)
    · exact hs.1 f hcall
    · exact hframes op
  obtain ⟨added, hadded, hnew⟩ := h.trace
  refine ⟨fun f hcall => hcalls f (h.call _ hcall), fun f r hmem => ?_⟩
  rw [hadded] at hmem
  rcases List.mem_append.mp hmem with hmem | hmem
  · exact hs.2 f r hmem
  · exact hcalls f (hnew _ r hmem)

/-- Settles O4: the decoder by its table, and a step by what its ticks may call. -/
theorem onlyTableFramesSent : Obligations.OnlyTableFramesSent := by
  refine ⟨Encoding.decode_sent_rejects_iff, fun s t hpar hs hstep => ?_⟩
  refine (step_keeps (P := fun u => u.par = {} ∧ SendsOnly tenFrames u) ?_ ?_ ?_ ⟨hpar, hs⟩ hstep).2
  · rintro a b ⟨hpar, ha⟩ htick
    have hp := tick_progress htick
    exact ⟨hp.par.trans hpar, sendsOnly_of_progress (hpar ▸ Encoding.frame_mem_tenFrames) ha hp⟩
  · rintro u ⟨hpar, hs⟩ hmove
    obtain ⟨hpar', -, ⟨added, hadded, hnone⟩, hcall⟩ := outside_frame hmove
    refine ⟨hpar'.trans hpar, fun f hf => ?_, fun f r hmem => ?_⟩
    · rcases hcall with hsame | hgone
      · exact hs.1 f (hsame ▸ hf)
      · exact nomatch hgone.symm.trans hf
    · rw [hadded] at hmem
      rcases List.mem_append.mp hmem with hmem | hmem
      · exact hs.2 f r hmem
      · exact absurd hmem (hnone _ r)
  · rintro u ⟨hpar, hs⟩ hstart
    obtain ⟨hpar', -, htrace, hcall, -⟩ := starts_frame hstart
    exact ⟨hpar'.trans hpar, fun f hf => (nomatch hcall.symm.trans hf), fun f r hmem => hs.2 f r (htrace ▸ hmem)⟩

/-! ## The fault (R35) -/

/-- Outside a DISPATCH: none in flight, and no acknowledge outstanding. -/
def NoDispatch (s : State) : Prop := (∀ l, s.step = some l → l.name.op ≠ .dispatch) ∧ s.call ≠ some .readAndAck

/-- No acknowledge has been answered since `s`, the first event of every DISPATCH (R240). -/
def NoAckSince (s t : State) : Prop := ∃ added, t.trace = s.trace ++ added ∧ ∀ r, Event.call .readAndAck r ∉ added

theorem noDispatch_of_progress {s t : State} (hs : NoDispatch s) (h : Progress s t) :
    NoDispatch t ∧ NoAckSince s t := by
  obtain ⟨hlabel, hcall⟩ := hs
  have hack : ¬(s.call = some .readAndAck ∨ Calls s .readAndAck) := by
    rintro (hc | ⟨l, hl, hop⟩)
    · exact hcall hc
    · exact hlabel l hl hop
  obtain ⟨added, hadded, hnew⟩ := h.trace
  refine ⟨⟨fun l hl hop => ?_, fun hc => hack (h.call _ hc)⟩, added, hadded, fun r hmem => hack (hnew _ r hmem)⟩
  obtain ⟨l', hl', hop'⟩ := h.op l hl
  exact hlabel l' hl' (hop'.trans hop)

/-- A set fault stays with its cause, and the latch is not set anew. -/
def Sticky (s t : State) : Prop :=
  t.fault = true ∧ (s.faultCause = .normalizerDivZero → t.faultCause = .normalizerDivZero) ∧
    (s.irqPend = false → t.irqPend = false)

theorem sticky_of_progress {s t : State} (hs : s.fault = true) (h : Progress s t) : Sticky s t := by
  refine ⟨h.faulted hs, h.cause, fun hpend => ?_⟩
  cases hpend' : t.irqPend with
  | false => rfl
  | true => exact nomatch hpend.symm.trans (h.irqPend hpend')

theorem latchIrq_of_fault {s : State} (h : s.fault = true) : s.latchIrq = s := by
  have hpend : (s.irqPend || (s.irqEn && !s.fault)) = s.irqPend := by simp [h]
  unfold State.latchIrq
  rw [hpend]

/-- With FAULT set no move of another agent but RST touches the fault, the latch or the operation in flight. -/
theorem outside_faulted {s t : State} (hs : s.fault = true) (hrst : ∀ rest, s.inbox ≠ .rst :: rest)
    (h : Outside s t) : t.fault = s.fault ∧ t.faultCause = s.faultCause ∧ t.irqPend = s.irqPend ∧ t.step = s.step := by
  cases h with
  | hostWrites => exact ⟨rfl, rfl, rfl, rfl⟩
  | request => unfold State.postRequest; split <;> exact ⟨rfl, rfl, rfl, rfl⟩
  | reset next => exact absurd next (hrst _)
  | portRead => exact ⟨rfl, rfl, rfl, rfl⟩
  | @asserted rest next => rw [latchIrq_of_fault (s := taken rest s) hs]; exact ⟨rfl, rfl, rfl, rfl⟩
  | stray => exact ⟨rfl, rfl, rfl, rfl⟩
  | @reserved i =>
    obtain ⟨q, moves, n, hport⟩ := Arbiter.takePort_frame i s
    rw [hport]
    exact ⟨rfl, rfl, rfl, rfl⟩

/-- With FAULT set only a request starts, never a DISPATCH (R224, log 9). -/
theorem starts_faulted {s t : State} (hs : s.fault = true) (h : Starts s t) : t.irqPend = s.irqPend ∧ NoDispatch t := by
  cases h with
  | @request i l rest first =>
    obtain ⟨-, -, hcall⟩ := (atRest_iff s).mp rest
    obtain ⟨q, moves, n, hport⟩ := Arbiter.takePort_frame i s
    rw [hport]
    refine ⟨rfl, fun l' hl' => ?_, fun hc => nomatch hcall.symm.trans hc⟩
    obtain rfl : l = l' := Option.some.inj hl'
    cases i <;> cases first <;> exact fun h => (nomatch h)
  | pending rest pending => exact nomatch hs.symm.trans ((dispatchPending_iff s).mp pending).2
  | @asserted moves rest pending => exact nomatch hs.symm.trans ((dispatchPending_iff _).mp pending).2

/-- The step of a faulted block, whatever it is. -/
theorem step_faulted {s t : State} (hs : s.fault = true) (hrst : ∀ rest, s.inbox ≠ .rst :: rest)
    (hstep : step s = .next t) : Sticky s t ∧ (NoDispatch s → NoDispatch t ∧ NoAckSince s t) := by
  have his := step_is s
  rw [hstep] at his
  generalize hout : (Host.Outcome.next t : Host.Outcome State Fault Refusal) = out at his
  cases his with
  | outside move =>
    cases hout
    obtain ⟨hfault, hcause, hpend, hlabel⟩ := outside_faulted hs hrst move
    obtain ⟨-, -, ⟨added, hadded, hnone⟩, hcall⟩ := outside_frame move
    refine ⟨⟨hfault.trans hs, hcause.trans, hpend.trans⟩, fun hno => ⟨⟨hlabel ▸ hno.1, ?_⟩, added, hadded, hnone _⟩⟩
    rcases hcall with hsame | hgone
    · rw [hsame]; exact hno.2
    · rw [hgone]; nofun
  | @starts u start =>
    obtain ⟨-, -, htrace, -, hfault, hcause⟩ := starts_frame start
    obtain ⟨hpend, hno⟩ := starts_faulted hs start
    have hp := run_progress hout.symm
    obtain ⟨hf, hc, hi⟩ := sticky_of_progress (hfault.trans hs) hp
    rw [hcause, hpend] at *
    obtain ⟨hno', hack⟩ := noDispatch_of_progress hno hp
    rw [NoAckSince, htrace] at hack
    exact ⟨⟨hf, hc, hi⟩, fun _ => ⟨hno', hack⟩⟩
  | ticks busy first =>
    have hp : Progress s t := by
      have hrun := run_progress hout.symm
      rcases first with rfl | hmoved
      · exact hrun
      · exact (tick_progress hmoved).trans hrun
    exact ⟨sticky_of_progress hs hp, fun hno => noDispatch_of_progress hno hp⟩

/-- Settles O48: what a tick may do to the fault and the latch, and that only a request starts beside a set fault. -/
theorem faultIsSticky : Obligations.FaultIsSticky := by
  intro s t hs hrst hstep
  obtain ⟨⟨hfault, hcause, hpend⟩, hdispatch⟩ := step_faulted hs hrst hstep
  refine ⟨hfault, hcause, hpend, fun hlabel hcall => ?_⟩
  obtain ⟨⟨hlabel', hcall'⟩, hack⟩ := hdispatch ⟨hlabel, hcall⟩
  exact ⟨hlabel', hcall', hack⟩

end Sys2Proof.Proofs.Steps
end

/-! What one step executes and what the other agents do to the block: the fetch, the arbiter, the host's port, the block
reset and the assertion of the interrupt line (20_memory.md R66, R69, 10_state.md R34, R42, 70_reset_and_hazards.md
R290). -/

section
namespace Sys2Proof.Proofs.Steps

open Sys2Proof Sys2Proof.Machine Sys2Proof.Safety Sys2Proof.Proofs.Ticks

/-! ## The frame that is fetched is the frame that is decoded (R91) -/

section
variable {s : State} {kind : List Byte → Wire} {d : Nat} {f more : List Byte} {rest : List Input} {i : Instr}

theorem asyncNext_of_reply {r : Reply} (hinbox : s.inbox = .reply d r :: rest) : s.asyncNext = false := by
  simp [State.asyncNext, hinbox, Input.isAsync]

theorem fetchFrame_of_answer (hinbox : s.inbox = .reply d (.received (f.length : Int) (f ++ more)) :: rest)
    (hdecode : decode s.par (kind f) = .ok i) : s.fetchFrame kind f.length = some (kind f) := by
  simp [State.fetchFrame, hinbox, State.decodable, hdecode]

/-- Where a receive is outstanding that a frame of this kind answers, the step executes the frame. -/
theorem step_of_frame (hwrite : s.hostCanWrite = false)
    (hinbox : s.inbox = .reply d (.received (f.length : Int) (f ++ more)) :: rest)
    (hfetch : s.fetchSequencer = s.fetchFrame kind f.length) (hdecode : decode s.par (kind f) = .ok i) :
    step s = exec i s := by
  refine step_of_fetch ?_ hdecode
  rw [fetch_sequencer hwrite (asyncNext_of_reply hinbox), hfetch, fetchFrame_of_answer hinbox hdecode]

end

/-- The command at T1 is executed as the instruction of its unit operation. -/
theorem step_of_command {s : State} {op : UnitOp} (hwrite : s.hostCanWrite = false) (hasync : s.asyncNext = false)
    (hcall : s.call = none) (hunit : s.unit = some (op, .t1)) : step s = exec op.instr s := by
  obtain ⟨o, hdecode, hframe⟩ := Encoding.decode_frame s.par op
  have hfetch : s.fetch = some (.sent (op.frame s.par)) := by
    rw [fetch_sequencer hwrite hasync, fetchSequencer_of_no_call hcall, hunit]
  rw [step_of_fetch hfetch hdecode, exec_of_frame_at_t1 hunit hframe, exec_of_frame_at_t1 hunit rfl]

/-- Settles O40: the fetch finds an assertion, the command at T1 or the frame that answers the outstanding receive. -/
theorem stepRunsDecoded : Obligations.StepRunsDecoded := by
  refine ⟨fun s w i => step_of_fetch, fun s hwrite =>
    ⟨fun rest => step_irq hwrite, fun op => step_of_command hwrite, ?_⟩⟩
  intro d f more rest i
  refine ⟨fun op hunit hcall hinbox hlen => ?_, fun hans hlen => ?_, fun hans hlen => ?_⟩
  · refine step_of_frame hwrite hinbox ?_
    have hresp : s.awaitsResponse = true := (awaitsResponse_iff s).mpr ⟨hcall, by rw [hunit]; rfl⟩
    rw [State.fetchSequencer, if_pos hresp, hlen]
  · refine step_of_frame hwrite hans.inbox ?_
    have hresp : ¬s.awaitsResponse = true := fun h => by
      obtain ⟨-, hunit⟩ := (awaitsResponse_iff s).mp h
      exact nomatch (congrArg (Option.map Prod.snd) hans.unit).symm.trans hunit
    have hhello : s.awaitsHello = true :=
      (awaitsHello_iff s).mpr ⟨hans.call, hans.unit, congrArg (Option.map Label.name) hans.step⟩
    rw [State.fetchSequencer, if_neg hresp, if_pos hhello, hlen]
  · refine step_of_frame hwrite hans.inbox ?_
    have hresp : ¬s.awaitsResponse = true := fun h => by
      obtain ⟨-, hunit⟩ := (awaitsResponse_iff s).mp h
      exact nomatch (congrArg (Option.map Prod.snd) hans.unit).symm.trans hunit
    have hname : s.stepName = some .i4 := congrArg (Option.map Label.name) hans.step
    have hhello : ¬s.awaitsHello = true := fun h => by
      obtain ⟨-, -, hstep⟩ := (awaitsHello_iff s).mp h
      exact nomatch hname.symm.trans hstep
    have hirq : s.awaitsIrqFrame = true := (awaitsIrqFrame_iff s).mpr ⟨hans.call, hans.unit, hname⟩
    rw [State.fetchSequencer, if_neg hresp, if_neg hhello, if_pos hirq, hlen]

/-! ## The arbiter (R66) -/

/-- `startDispatch`, in the terms of the statements. -/
theorem startDispatch_eq (s : State) : startDispatch s = dispatchFrom s := by
  have henter : s.popTurn.enterDispatch = { s with inbox := afterTurn s.inbox, step := some .i1, ur := none } := by
    rcases popTurn_cases s with ⟨b, rest, hinbox, hpop⟩ | ⟨hno, hpop⟩
    · rw [hpop, hinbox]; rfl
    · have hafter : afterTurn s.inbox = s.inbox := by
        unfold afterTurn
        split
        · next b rest hinbox => exact absurd hinbox (hno b rest)
        · rfl
      rw [hpop, hafter]
      rfl
  rw [startDispatch, henter, dispatchFrom]

section
variable {s : State} (hrest : s.atRest = true) (hwrite : s.hostCanWrite = false) (hasync : s.asyncNext = false)
include hrest hwrite hasync

theorem fetch_atRest : s.fetch = s.fetchRequest := by
  obtain ⟨hstep, hunit, hcall⟩ := (atRest_iff s).mp hrest
  rw [fetch_sequencer hwrite hasync, fetchSequencer_of_no_call hcall, hunit, hstep]
  rfl

theorem step_of_host_chosen {q : HostReq} (hreq : s.hostReq = some q) (hchoice : s.arbitrate.1 = true) :
    step s = exec (decodeRequest q) s := by
  refine step_of_fetch (w := .request q) ?_ rfl
  rw [fetch_atRest hrest hwrite hasync, State.fetchRequest, if_pos hchoice, hreq]
  rfl

theorem step_of_irq_chosen (hchoice : s.arbitrate.1 = false) (hpending : s.dispatchPending = true) :
    step s = dispatchFrom s.arbitrate.2 := by
  have hnone : s.fetch = none := by
    rw [fetch_atRest hrest hwrite hasync, State.fetchRequest, hchoice]
    rfl
  have hbusy : ¬(!s.atRest) = true := by simp [hrest]
  rw [step_of_no_fetch hnone, otherMove_sequencer hwrite hasync, if_neg hbusy, if_pos hpending, startDispatch_eq]

end

theorem arbitrate_no_request {s : State} (hreq : s.hostReq = none) : s.arbitrate = (false, s) := by
  simp [State.arbitrate, hreq]

theorem arbitrate_no_dispatch {s : State} {q : HostReq} (hreq : s.hostReq = some q)
    (hpending : s.dispatchPending = false) : s.arbitrate = (true, s) := by
  simp [State.arbitrate, hreq, hpending]

theorem arbitrate_both {s : State} {q : HostReq} (hreq : s.hostReq = some q) (hpending : s.dispatchPending = true) :
    s.arbitrate =
      match s.inbox with
      | .turn hostFirst :: _ => (hostFirst, s)
      | _ => (Config.arbiterFree s.freeCount, { s with freeCount := s.freeCount + 1 }) := by
  unfold State.arbitrate
  rw [hreq, hpending] <;> rfl

/-- Until the acknowledge is answered a DISPATCH stands at I2 (R240). -/
theorem dispatchFrom_waits {s : State} (hrest : s.atRest = true) (hinbox : afterTurn s.inbox = []) :
    dispatchFrom s = .next { s with
      step := some .i2, ur := none, irqPend := false, rx := none, call := some .readAndAck, inbox := [] } := by
  obtain ⟨-, hunit, hcall⟩ := (atRest_iff s).mp hrest
  have hsettled : Settled [] := nofun
  rw [dispatchFrom, hinbox]
  refine (Dispatcher.run_labelBegin (s := { s with inbox := [], step := some .i1, ur := none }) (l := .i1) _ rfl hunit
    hcall rfl hsettled rfl).trans ?_
  refine (Dispatcher.run_labelBegin
    (s := { s with inbox := [], step := some .i2, ur := none, irqPend := false, rx := none }) (l := .i2) _ rfl hunit
    hcall rfl hsettled rfl).trans ?_
  exact run_rest _ rfl

/-- Settles O41: what the arbiter picks is what the step runs. -/
theorem arbiterChoiceIsFree : Obligations.ArbiterChoiceIsFree := by
  intro s hrest hwrite hasync
  refine ⟨fun q hreq hno => ?_, dispatchFrom_waits hrest, fun hreq hpend hfault => ?_, fun q hreq hpend hfault => ?_⟩
  · have hpending : s.dispatchPending = false := by
      rcases hno with h | h
      · simp [State.dispatchPending, h]
      · simp [State.dispatchPending, h]
    exact step_of_host_chosen hrest hwrite hasync hreq (by rw [arbitrate_no_dispatch hreq hpending])
  · have h := step_of_irq_chosen hrest hwrite hasync (by rw [arbitrate_no_request hreq])
      ((dispatchPending_iff s).mpr ⟨hpend, hfault⟩)
    rwa [arbitrate_no_request hreq] at h
  · have hpending := (dispatchPending_iff s).mpr ⟨hpend, hfault⟩
    have hboth := arbitrate_both hreq hpending
    refine ⟨fun rest hturn => ?_, fun rest hturn => ?_, fun hturn => ?_⟩
    · rw [hturn] at hboth
      exact step_of_host_chosen hrest hwrite hasync hreq (by rw [hboth])
    · rw [hturn] at hboth
      have h := step_of_irq_chosen hrest hwrite hasync (by rw [hboth]) hpending
      rwa [hboth] at h
    · have hfree : s.arbitrate = (Config.arbiterFree s.freeCount, { s with freeCount := s.freeCount + 1 }) := by
        rw [hboth]
        split
        · next b rest hinbox => exact absurd hinbox (hturn b rest)
        · rfl
      cases hchoice : Config.arbiterFree s.freeCount with
      | true => exact .inl (step_of_host_chosen hrest hwrite hasync hreq (by rw [hfree]; exact hchoice))
      | false =>
        have h := step_of_irq_chosen hrest hwrite hasync (by rw [hfree]; exact hchoice) hpending
        rw [hfree] at h
        exact .inr h

/-! ## The host's port (R42, R69) -/

/-- Settles O42: a free port that no earlier request waits for takes the request; a waiting one goes first. -/
theorem hostWritesPort : Obligations.HostWritesPort := by
  refine ⟨fun s q rest hinbox hwrite => ?_, fun s q w => step_hostWrites⟩
  rw [step_request hwrite hinbox]
  cases hreq : s.hostReq with
  | none =>
    have hwait : s.hostWait = [] := by simpa [State.hostCanWrite, hreq] using hwrite
    rw [postRequest_free (s := taken rest s) hreq hwait, if_pos rfl]
    rfl
  | some q' =>
    rw [postRequest_taken (s := taken rest s) hreq, if_neg nofun, ← hreq]
    rfl

/-- Settles O45: the read is the step, and it writes the log alone. -/
theorem portReadHasNoEffect : Obligations.PortReadHasNoEffect := fun _ _ _ _ hinbox hwrite =>
  step_portRead hwrite hinbox

/-- A request that finds an operation in flight waits, whatever its code (R72). -/
theorem exec_busy {q : HostReq} {s : State} (hbusy : s.atRest = false) (harg : q.code ≠ 0 → q.arg = none) :
    exec (decodeRequest q) s = .next (s.waitRequest (decodeRequest q) q) := by
  obtain ⟨code, arg⟩ := q
  have hbusy' : ¬s.atRest = true := by simp [hbusy]
  by_cases hattach : code = 0
  · subst hattach
    exact if_neg hbusy'
  · obtain rfl : arg = none := harg hattach
    have hcodes : ∀ c : BitVec 3, c ≠ 0 → c = 1 ∨ c = 2 ∨ c = 3 ∨ c = 4 ∨ c = 5 ∨ c = 6 ∨ c = 7 := by decide
    rcases hcodes code hattach with rfl | rfl | rfl | rfl | rfl | rfl | rfl <;> exact if_neg hbusy'

/-- Settles O28: with an operation in flight the request is posted, unless it stands in the port already. -/
theorem busyRequestsWait : Obligations.BusyRequestsWait := by
  intro q s hbusy harg
  rw [exec_busy hbusy harg, State.waitRequest]
  by_cases hheld : s.hostReq.map decodeRequest = some (decodeRequest q)
  · rw [if_pos ((Arbiter.holdsRequest_iff _ s).mpr hheld), if_pos hheld]
  · rw [if_neg (mt (Arbiter.holdsRequest_iff _ s).mp hheld), if_neg hheld]
    by_cases hfree : s.hostReq = none ∧ s.hostWait = []
    · rw [if_pos hfree, postRequest_free hfree.1 hfree.2]
    · rw [if_neg hfree]
      unfold State.postRequest
      split
      · next hreq hwait => exact absurd ⟨hreq, hwait⟩ hfree
      · rfl

/-- Settles O26: a reserved request is taken and answered in one action. -/
theorem reservedRequests : Obligations.ReservedRequests := by
  intro i s hi hrest
  rw [exec_reserved hi hrest]
  obtain ⟨q, moves, n, hport⟩ := Arbiter.takePort_frame i s
  rw [hport]
  rfl

/-! ## The interrupt line (R34) -/

section
variable {s : State} {rest : List Input}

/-- The assertion that comes next is latched; where the sequencer can take it, its DISPATCH starts (log 22). -/
theorem exec_irqLine (hinbox : s.inbox = .irq :: rest) :
    exec .irqLine s =
      if ((taken rest s).latchIrq.dispatchPending && s.atRest && !(taken rest s).asyncNext && s.hostReq.isNone) = true
      then startDispatch (taken rest s).latchIrq else .next (taken rest s).latchIrq := by
  have htake : s.takeAssertion = taken rest s := by simp [State.takeAssertion, hinbox, taken]
  show execIrqLine s = _
  unfold execIrqLine
  rw [htake]
  rfl

/-- An assertion that leaves no interrupt pending has no effect but its latch. -/
theorem exec_irqLine_not_pending (hinbox : s.inbox = .irq :: rest)
    (hpending : (taken rest s).latchIrq.dispatchPending = false) :
    exec .irqLine s = .next (taken rest s).latchIrq := by
  rw [exec_irqLine hinbox, hpending]
  rfl

theorem latchIrq_of_enabled {s : State} (hen : s.irqEn = true) (hfault : s.fault = false) :
    s.latchIrq = { s with irqPend := true } := by
  have hpend : (s.irqPend || (s.irqEn && !s.fault)) = true := by simp [hen, hfault]
  unfold State.latchIrq
  rw [hpend]

end

/-- Settles O22: what the latch does in each case, and that nothing starts. -/
theorem assertionLatch : Obligations.AssertionLatch := by
  intro s rest hinbox
  constructor
  · rintro (hfault | ⟨hpend, hen⟩)
    · have hlatch : (taken rest s).latchIrq = taken rest s := latchIrq_of_fault (s := taken rest s) hfault
      rw [exec_irqLine_not_pending hinbox (by rw [hlatch]; simp [State.dispatchPending, taken, hfault]), hlatch]
      rfl
    · have hlatch : (taken rest s).latchIrq = taken rest s := Invariant.latchIrq_of_masked (s := taken rest s) hen
      rw [exec_irqLine_not_pending hinbox (by rw [hlatch]; simp [State.dispatchPending, taken, hpend]), hlatch]
      rfl
  · intro hen hfault hbusy
    have hstays : ∀ a b : Bool, (a && s.atRest && b && s.hostReq.isNone) = false := by
      intro a b
      rcases hbusy with h | h
      · simp [h]
      · simp [Option.isNone_eq_false_iff.mpr h]
    rw [exec_irqLine hinbox, hstays, latchIrq_of_enabled (s := taken rest s) hen hfault]
    rfl

/-! ## Block reset (R50, R290) -/

/-- Settles O43: RST is the step, and `State.blockReset` is the table of R50. -/
theorem blockReset : Obligations.BlockReset := fun _ _ hinbox hwrite => step_rst hwrite hinbox

/-- Settles O44: the reset table of R50, read off the definition. -/
theorem resetValues : Obligations.ResetValues :=
  ⟨rfl, rfl, rfl, rfl, rfl, rfl, rfl, rfl, rfl, rfl, rfl, rfl, rfl, rfl, fun _ => rfl, fun _ => rfl, fun _ => rfl⟩

end Sys2Proof.Proofs.Steps
end

/-! The report decoder over whole frames, and the bounds of the normalizer (42_report_decoder.md R160 to R168,
43_normalizer.md R185, R187). -/

section
namespace Sys2Proof.Proofs.Decoder

open Sys2Proof Sys2Proof.Machine Sys2Proof.Proofs.Normalizer

/-! ## The bytes of a slot (R96, R165) -/

/-- A slot's bytes: the two high half bytes share b0, and the low bytes stand alone. -/
theorem toNat_slotBytes (x y : BitVec 12) :
    (slotBytes x y).1.toNat = y.toNat / 256 * 16 + x.toNat / 256 ∧ (slotBytes x y).2.1.toNat = y.toNat % 256 ∧
      (slotBytes x y).2.2.toNat = x.toNat % 256 := by
  have hx : x.toNat < 4096 := x.isLt
  have hy : y.toNat < 4096 := y.isLt
  refine ⟨?_, BitVec.toNat_setWidth .., BitVec.toNat_setWidth ..⟩
  have hhigh : (((y >>> 8).setWidth 8 <<< 4 : Byte)).toNat = 2 ^ 4 * (y.toNat / 256) := by
    rw [BitVec.toNat_shiftLeft, BitVec.toNat_setWidth, BitVec.toNat_ushiftRight, Nat.shiftRight_eq_div_pow,
      Nat.shiftLeft_eq]
    omega
  have hlow : ((x >>> 8).setWidth 8 : Byte).toNat = x.toNat / 256 := by
    rw [BitVec.toNat_setWidth, BitVec.toNat_ushiftRight, Nat.shiftRight_eq_div_pow]
    omega
  have hsmall : x.toNat / 256 < 2 ^ 4 := by omega
  calc (slotBytes x y).1.toNat
      = 2 ^ 4 * (y.toNat / 256) ||| x.toNat / 256 := by rw [slotBytes, BitVec.toNat_or, hhigh, hlow]
    _ = 2 ^ 4 * (y.toNat / 256) + x.toNat / 256 := (Nat.two_pow_add_eq_or_of_lt hsmall _).symm
    _ = y.toNat / 256 * 16 + x.toNat / 256 := by omega

/-- Only the point (0, 0) has an all-zero slot (R165). -/
theorem slotBytes_zero_iff (x y : BitVec 12) :
    ((slotBytes x y).1 = 0 ∧ (slotBytes x y).2.1 = 0 ∧ (slotBytes x y).2.2 = 0) ↔ x = 0 ∧ y = 0 := by
  obtain ⟨h0, h1, h2⟩ := toNat_slotBytes x y
  constructor
  · rintro ⟨hb0, hb1, hb2⟩
    have hzero : (0 : Byte).toNat = 0 := rfl
    rw [hb0, hzero] at h0
    rw [hb1, hzero] at h1
    rw [hb2, hzero] at h2
    exact ⟨BitVec.eq_of_toNat_eq (by simp; omega), BitVec.eq_of_toNat_eq (by simp; omega)⟩
  · rintro ⟨rfl, rfl⟩
    exact ⟨rfl, rfl, rfl⟩

/-- Settles O56: an all-zero slot is (0, 0) alone, and the coordinates of any other slot are put together from the same
half bytes that `slotBytes` takes them apart into. -/
theorem slotRoundTrip : Obligations.SlotRoundTrip := by
  intro i x y
  obtain ⟨h0, h1, h2⟩ := toNat_slotBytes x y
  by_cases hzero : x = 0 ∧ y = 0
  · obtain ⟨rfl, rfl⟩ := hzero
    rfl
  · rw [if_neg hzero]
    cases hpos : (decodeSlot i (slotBytes x y).1 (slotBytes x y).2.1 (slotBytes x y).2.2).pos with
    | none => exact absurd ((slotBytes_zero_iff x y).mp ((decodeSlot_pos_eq_none_iff ..).mp hpos)) hzero
    | some p =>
      obtain ⟨hx, hy⟩ := toNat_of_decodeSlot_pos_eq_some hpos
      have hxlt : x.toNat < 4096 := x.isLt
      have hylt : y.toNat < 4096 := y.isLt
      have hpx : p.1 = x := BitVec.eq_of_toNat_eq (by omega)
      have hpy : p.2 = y := BitVec.eq_of_toNat_eq (by omega)
      have hslot := decodeSlot_slot i (slotBytes x y).1 (slotBytes x y).2.1 (slotBytes x y).2.2
      cases hpoint : decodeSlot i (slotBytes x y).1 (slotBytes x y).2.1 (slotBytes x y).2.2 with
      | mk slot pos =>
        rw [hpoint] at hpos hslot
        rw [← hpx, ← hpy]
        exact congrArg₂ TouchPoint.mk hslot hpos

/-! ## A whole report (R160 to R164) -/

theorem toNat_fingerCountOf {p : Params} (hlit : p.lit = Config.lit) (f : List Byte) :
    (fingerCountOf p f).toNat = (byteAt f 1).toNat % 8 := by
  have hmask : (byteAt f 1 &&& (0x07 : Byte)).toNat = (byteAt f 1).toNat % 8 := by
    simpa using Nat.and_two_pow_sub_one_eq_mod (byteAt f 1).toNat 3
  rw [fingerCountOf, hlit]
  change ((byteAt f 1 &&& (0x07 : Byte)).setWidth 3).toNat = _
  rw [BitVec.toNat_setWidth, hmask]
  omega

/-- Settles O57: the scan reads five slots in order, each at its offset, or none at all. -/
theorem reportScan : Obligations.ReportScan := by
  intro p f hlit _
  have hslots : p.lit.nSlots = 5 := by rw [hlit]; rfl
  have hpts : (decodeReport p f).pts = (List.range 5).map fun i =>
      if fingerCountOf p f = 0 then { slot := i, pos := none } else slotOf p f i := by rw [← hslots]; rfl
  refine ⟨toNat_fingerCountOf hlit f, ?_, fun hfc q hq => ?_, fun hfc i hi => ?_⟩
  · rw [hpts, List.map_map]
    have hslot : TouchPoint.slot ∘ (fun i =>
        if fingerCountOf p f = 0 then ({ slot := i, pos := none } : TouchPoint) else slotOf p f i) = id := by
      funext i
      simp only [Function.comp]
      split
      · rfl
      · exact decodeSlot_slot ..
    rw [hslot, List.map_id]
    rfl
  · rw [hpts] at hq
    obtain ⟨i, -, rfl⟩ := List.mem_map.mp hq
    rw [if_pos (show fingerCountOf p f = 0 from hfc)]
  · rw [hpts, List.getElem?_map, List.getElem?_range hi]
    have hne : ¬fingerCountOf p f = 0 := hfc
    have hslot : slotOf p f i = decodeSlot i (byteAt f (2 + 3 * i)) (byteAt f (2 + 3 * i + 1))
        (byteAt f (2 + 3 * i + 2)) := by rw [slotOf, hlit]; rfl
    have h1 : 2 + 3 * i + 1 = 3 + 3 * i := by omega
    have h2 : 2 + 3 * i + 2 = 4 + 3 * i := by omega
    rw [Option.map_some, if_neg hne, hslot, h1, h2]
    rfl

end Sys2Proof.Proofs.Decoder

namespace Sys2Proof.Proofs.Normalizer

open Sys2Proof Sys2Proof.Machine Sys2Proof.Safety

/-! ## Bounds and laws of the stages (R185, R187) -/

theorem scale_le (x : BitVec 12) (m : BitVec 16) (n : Nat) : scale x.toNat m.toNat n ≤ 4095 * 65535 := by
  have hx : x.toNat ≤ 4095 := Nat.le_of_lt_succ x.isLt
  have hm : m.toNat ≤ 65535 := Nat.le_of_lt_succ m.isLt
  exact (Nat.div_le_self _ _).trans (Nat.mul_le_mul hx hm)

/-- One axis after the second stage. -/
theorem abs_revert_scale_le (flag : Bool) (x : BitVec 12) (m : BitVec 16) (n : Nat) :
    |revert flag m.toNat (scale x.toNat m.toNat n : Nat)| ≤ 2 ^ 28 := by
  have hscale := scale_le x m n
  have hm : m.toNat ≤ 65535 := Nat.le_of_lt_succ m.isLt
  rw [abs_le]
  cases flag with
  | false => simp only [revert, Bool.false_eq_true, if_false]; omega
  | true => simp only [revert, if_true]; omega

/-- Settles O59: each axis is bounded before the exchange, which only swaps the two. -/
theorem normalizeBound : Obligations.NormalizeBound := by
  intro smx smy nx ny fx fy fxy x y
  have hx := abs_revert_scale_le fx x smx nx
  have hy := abs_revert_scale_le fy y smy ny
  cases fxy with
  | false => exact ⟨hx, hy⟩
  | true => exact ⟨hy, hx⟩

/-- Settles O60: each law by the arithmetic of its own stage. -/
theorem normalizeProperties : Obligations.NormalizeProperties := by
  refine ⟨fun v w m n _ hvw => Nat.div_le_div_right (Nat.mul_le_mul_right m hvw), fun flag m v => ?_,
    fun flag m v h0 hm => ?_, fun flag p => ?_⟩
  · cases flag with
    | false => rfl
    | true => exact sub_sub_cancel (m : Int) v
  · cases flag with
    | false => exact ⟨h0, hm⟩
    | true => exact ⟨sub_nonneg.mpr hm, sub_le_self _ h0⟩
  · cases flag <;> rfl

end Sys2Proof.Proofs.Normalizer
end

/-! The read-only status port, bit by bit (10_state.md R44). -/

section
namespace Sys2Proof.Proofs.StatusPort

open Sys2Proof Sys2Proof.Machine

/-! ## The bits of one field -/

theorem getLsbD_portBit (b : Bool) (n i : Nat) :
    (portBit b n).getLsbD i = (b && decide (n < 16) && decide (n = i)) := by
  cases b with
  | false => exact BitVec.getLsbD_zero
  | true =>
    have hpow : portBit true n = BitVec.twoPow 16 n := rfl
    rw [hpow, BitVec.getLsbD_twoPow, Bool.true_and]

/-- A bit outside a range of bits adds nothing to it. -/
theorem extractLsb'_portBit (b : Bool) {n lo len : Nat} (h : n < lo ∨ lo + len ≤ n) :
    (portBit b n).extractLsb' lo len = 0 := by
  refine BitVec.eq_of_getLsbD_eq fun i hi => ?_
  have hne : ¬n = lo + i := by omega
  rw [BitVec.getLsbD_extractLsb', getLsbD_portBit, decide_eq_false hne, Bool.and_false, Bool.and_false]
  exact BitVec.getLsbD_zero.symm

theorem getLsbD_portFlag (v : Option Bool) {n : Nat} (hn : n < 16) (draw : BitVec 16) (i : Nat) :
    (portFlag v n draw).getLsbD i = (decide (n = i) && v.getD (draw.getLsbD i)) := by
  cases v with
  | none => rw [portFlag, BitVec.getLsbD_and, getLsbD_portBit]; simp [hn, Bool.and_comm]
  | some b => rw [portFlag, getLsbD_portBit]; simp [hn, Bool.and_comm]

/-- A flag outside a range of bits adds nothing to it. -/
theorem extractLsb'_portFlag (v : Option Bool) (draw : BitVec 16) {n lo len : Nat} (h : n < lo ∨ lo + len ≤ n) :
    (portFlag v n draw).extractLsb' lo len = 0 := by
  cases v with
  | none => rw [portFlag, BitVec.extractLsb'_and, extractLsb'_portBit true h]; exact BitVec.and_zero
  | some b => exact extractLsb'_portBit b h

/-- A field of 16 bits. -/
theorem portField_word (v : Option (BitVec 16)) (draw : BitVec 16) : portField v 0xFFFF draw = v.getD draw := by
  cases v with
  | none => exact BitVec.and_allOnes
  | some x => exact BitVec.setWidth_eq x

/-- The low bits of a word that was widened to 16 bits. -/
theorem extractLsb'_setWidth {w : Nat} (x : BitVec w) (hw : w ≤ 16) : (x.setWidth 16).extractLsb' 0 w = x := by
  refine BitVec.eq_of_getLsbD_eq fun i hi => ?_
  have hi16 : i < 16 := by omega
  simp [hi, hi16]

/-- A range above the width of a widened word. -/
theorem extractLsb'_setWidth_above {w lo len : Nat} (x : BitVec w) (h : w ≤ lo) :
    (x.setWidth 16).extractLsb' lo len = 0 := by
  refine BitVec.eq_of_getLsbD_eq fun i hi => ?_
  have hge : w ≤ lo + i := by omega
  simp [BitVec.getLsbD_extractLsb', BitVec.getLsbD_setWidth, BitVec.getLsbD_of_ge x _ hge]

/-- A field of 12 bits. -/
theorem extractLsb'_portField (v : Option (BitVec 12)) (draw : BitVec 16) :
    (portField v 0x0FFF draw).extractLsb' 0 12 = v.getD (draw.extractLsb' 0 12) ∧
      (portField v 0x0FFF draw).extractLsb' 12 4 = 0 := by
  cases v with
  | none =>
    have hlow : (0x0FFF : BitVec 16).extractLsb' 0 12 = BitVec.allOnes 12 := rfl
    have hhigh : (0x0FFF : BitVec 16).extractLsb' 12 4 = 0 := rfl
    rw [portField, BitVec.extractLsb'_and, BitVec.extractLsb'_and, hlow, hhigh]
    exact ⟨BitVec.and_allOnes, BitVec.and_zero⟩
  | some x => exact ⟨extractLsb'_setWidth x (by decide), extractLsb'_setWidth_above x (by decide)⟩

/-- A word above a shift leaves the bits below it alone. -/
theorem extractLsb'_shiftLeft_below {n lo len : Nat} (x : BitVec 16) (h : lo + len ≤ n) :
    (x <<< n).extractLsb' lo len = 0 := by
  refine BitVec.eq_of_getLsbD_eq fun i hi => ?_
  have hlt : lo + i < n := by omega
  simp [BitVec.getLsbD_extractLsb', BitVec.getLsbD_shiftLeft, hlt]

/-! ## STATUS and RESOURCES (RN 0, RN 1) -/

/-- The codes of LIFE and of LAST_RESULT stand in their fields, and nothing stands above them. -/
theorem portStatus_fields (s : State) :
    s.portStatus.extractLsb' 0 3 = s.life.code ∧ s.portStatus.extractLsb' 8 4 = s.lastResult.code ∧
      s.portStatus.extractLsb' 12 4 = 0 := by
  have hcode : ((s.lastResult.code.setWidth 16 <<< 8) : BitVec 16).extractLsb' 8 4 = s.lastResult.code ∧
      ((s.lastResult.code.setWidth 16 <<< 8) : BitVec 16).extractLsb' 12 4 = 0 := by
    cases s.lastResult <;> exact ⟨rfl, rfl⟩
  simp only [State.portStatus, BitVec.extractLsb'_or]
  refine ⟨?_, ?_, ?_⟩
  · rw [extractLsb'_setWidth _ (by decide), extractLsb'_portBit _ (by decide), extractLsb'_portBit _ (by decide),
      extractLsb'_portBit _ (by decide), extractLsb'_portBit _ (by decide), extractLsb'_shiftLeft_below _ (by decide)]
    simp
  · rw [extractLsb'_setWidth_above _ (by decide), extractLsb'_portBit _ (by decide), extractLsb'_portBit _ (by decide),
      extractLsb'_portBit _ (by decide), extractLsb'_portBit _ (by decide), hcode.1]
    simp
  · rw [extractLsb'_setWidth_above _ (by decide), extractLsb'_portBit _ (by decide), extractLsb'_portBit _ (by decide),
      extractLsb'_portBit _ (by decide), extractLsb'_portBit _ (by decide), hcode.2]
    simp

theorem getLsbD_portStatus (s : State) (i : Nat) :
    s.portStatus.getLsbD i =
      ((s.life.code.setWidth 16).getLsbD i || s.irqEn && decide (3 = i) || s.irqPend && decide (4 = i)
        || s.fault && decide (5 = i) || s.busy && decide (6 = i)
        || ((s.lastResult.code.setWidth 16 <<< 8) : BitVec 16).getLsbD i) := by
  simp only [State.portStatus, BitVec.getLsbD_or, getLsbD_portBit, Nat.reduceLT, decide_true, Bool.and_true]

/-- The flags of STATUS: bits 3 to 6, and bit 7 unused. -/
theorem portStatus_flags (s : State) :
    s.portStatus.getLsbD 3 = s.irqEn ∧ s.portStatus.getLsbD 4 = s.irqPend ∧ s.portStatus.getLsbD 5 = s.fault ∧
      s.portStatus.getLsbD 6 = s.busy ∧ s.portStatus.getLsbD 7 = false := by
  have hlife : ∀ i, 3 ≤ i → (s.life.code.setWidth 16).getLsbD i = false := fun i hi => by
    rw [BitVec.getLsbD_setWidth, BitVec.getLsbD_of_ge _ i hi, Bool.and_false]
  have hresult : ∀ i, i < 8 → ((s.lastResult.code.setWidth 16 <<< 8) : BitVec 16).getLsbD i = false := fun i hi => by
    simp [BitVec.getLsbD_shiftLeft, hi]
  have hbit := getLsbD_portStatus s
  refine ⟨?_, ?_, ?_, ?_, ?_⟩
  · rw [hbit, hlife 3 (by decide), hresult 3 (by decide)]; simp
  · rw [hbit, hlife 4 (by decide), hresult 4 (by decide)]; simp
  · rw [hbit, hlife 5 (by decide), hresult 5 (by decide)]; simp
  · rw [hbit, hlife 6 (by decide), hresult 6 (by decide)]; simp
  · rw [hbit, hlife 7 (by decide), hresult 7 (by decide)]; simp

/-- RESOURCES is nine bits, each at its place. -/
theorem getLsbD_portResources (s : State) (i : Nat) :
    s.portResources.getLsbD i =
      (s.res.pins && decide (0 = i) || s.res.irqCfg && decide (1 = i) || s.res.bus && decide (2 = i)
        || s.res.host && decide (3 = i) || s.ses.fwVersion.isSome && decide (4 = i)
        || s.ses.width.isSome && decide (5 = i) || s.ses.height.isSome && decide (6 = i)
        || s.ses.cfgSmx.isSome && decide (7 = i) || s.lastReport.isSome && decide (8 = i)) := by
  simp only [State.portResources, BitVec.getLsbD_or, getLsbD_portBit, Session.cfgValid, Nat.reduceLT, decide_true,
    Bool.and_true]

theorem portResources_above (s : State) : s.portResources.extractLsb' 9 7 = 0 := by
  simp only [State.portResources, BitVec.extractLsb'_or]
  rw [extractLsb'_portBit _ (by decide), extractLsb'_portBit _ (by decide), extractLsb'_portBit _ (by decide),
    extractLsb'_portBit _ (by decide), extractLsb'_portBit _ (by decide), extractLsb'_portBit _ (by decide),
    extractLsb'_portBit _ (by decide), extractLsb'_portBit _ (by decide), extractLsb'_portBit _ (by decide)]
  simp

/-- RN 22 to 31 (R44). -/
theorem portValue_unused {n : Nat} (h : 22 ≤ n) (draw : BitVec 16) (s : State) : s.portValue n draw = 0 := by
  unfold State.portValue
  iterate 13 rw [if_neg (by omega)]

/-- Settles O46: the fields and flags of RN 0 and RN 1, and the registers that do not exist. -/
theorem portBits : Obligations.PortBits := by
  intro s draw
  obtain ⟨hlife, hresult, habove⟩ := portStatus_fields s
  obtain ⟨hen, hpend, hfault, hbusy, hunused⟩ := portStatus_flags s
  have hbit := getLsbD_portResources s
  refine ⟨?_, hen, hpend, hfault, hbusy, hunused, ?_, habove, ?_, ?_, ?_, ?_, ?_, ?_, ?_, ?_, ?_,
    portResources_above s, fun n hn _ => portValue_unused hn draw s⟩
  · exact hlife.trans (by cases s.life <;> rfl)
  · exact hresult.trans (by cases s.lastResult <;> rfl)
  · exact (hbit 0).trans (by simp)
  · exact (hbit 1).trans (by simp)
  · exact (hbit 2).trans (by simp)
  · exact (hbit 3).trans (by simp)
  · exact (hbit 4).trans (by simp)
  · exact (hbit 5).trans (by simp)
  · exact (hbit 6).trans (by simp)
  · exact (hbit 7).trans (by simp)
  · exact (hbit 8).trans (by simp)

/-! ## The session registers (RN 2 to 10) -/

/-- A word above a shift, where it fits. -/
theorem extractLsb'_shiftLeft {w n : Nat} (x : BitVec w) (h : n + w ≤ 16) :
    ((x.setWidth 16 <<< n) : BitVec 16).extractLsb' n w = x := by
  refine BitVec.eq_of_getLsbD_eq fun i hi => ?_
  have h16 : n + i < 16 := by omega
  simp [hi, h16]

theorem portPower_bits (draw : BitVec 16) (s : State) :
    (s.portPower draw).getLsbD 0 = s.ses.powerOn.getD (draw.getLsbD 0) ∧
      (s.portPower draw).getLsbD 1 = s.ses.powerOn.isSome ∧
      (s.portPower draw).getLsbD 2 = s.ses.powerRb.getD (draw.getLsbD 2) ∧
      (s.portPower draw).getLsbD 3 = s.ses.powerRb.isSome ∧ (s.portPower draw).extractLsb' 4 12 = 0 := by
  have hbit : ∀ i, (s.portPower draw).getLsbD i =
      (decide (0 = i) && s.ses.powerOn.getD (draw.getLsbD i) || s.ses.powerOn.isSome && decide (1 = i)
        || decide (2 = i) && s.ses.powerRb.getD (draw.getLsbD i) || s.ses.powerRb.isSome && decide (3 = i)) := by
    intro i
    simp only [State.portPower, BitVec.getLsbD_or, getLsbD_portBit, getLsbD_portFlag _ (n := 0) (by decide),
      getLsbD_portFlag _ (n := 2) (by decide), Nat.reduceLT, decide_true, Bool.and_true]
  refine ⟨(hbit 0).trans (by simp), (hbit 1).trans (by simp), (hbit 2).trans (by simp), (hbit 3).trans (by simp), ?_⟩
  simp only [State.portPower, BitVec.extractLsb'_or]
  rw [extractLsb'_portFlag _ _ (by decide), extractLsb'_portBit _ (by decide), extractLsb'_portFlag _ _ (by decide),
    extractLsb'_portBit _ (by decide)]
  simp

theorem streamKind_unrecognised (b : Byte) : streamKind (some (.unrecognised b)) = 3 := rfl

/-- STREAM's kind, as it stands in its field: no bit of it elsewhere. -/
theorem streamKind_bits (r : Option StreamState) :
    ((streamKind r <<< 2).getLsbD 0 = false ∧ (streamKind r <<< 2).getLsbD 1 = false) ∧
      (streamKind r <<< 2).extractLsb' 4 4 = 0 ∧ (streamKind r <<< 2).extractLsb' 8 8 = 0 := by
  rcases r with _ | _ | _ | b
  · exact ⟨⟨rfl, rfl⟩, rfl, rfl⟩
  · exact ⟨⟨rfl, rfl⟩, rfl, rfl⟩
  · exact ⟨⟨rfl, rfl⟩, rfl, rfl⟩
  · rw [streamKind_unrecognised]
    exact ⟨⟨rfl, rfl⟩, rfl, rfl⟩

theorem portStream_flags (draw : BitVec 16) (s : State) :
    (s.portStream draw).getLsbD 0 = s.ses.streamingOn.getD (draw.getLsbD 0) ∧
      (s.portStream draw).getLsbD 1 = s.ses.streamingOn.isSome := by
  obtain ⟨⟨hkind0, hkind1⟩, -⟩ := streamKind_bits s.ses.streamRb
  constructor
  · simp only [State.portStream, BitVec.getLsbD_or, getLsbD_portBit, getLsbD_portFlag _ (n := 0) (by decide), hkind0]
    simp
  · simp only [State.portStream, BitVec.getLsbD_or, getLsbD_portBit, getLsbD_portFlag _ (n := 0) (by decide), hkind1]
    simp

/-- The fields of STREAM: its flags, kind and raw byte do not meet. -/
theorem portStream_fields (draw : BitVec 16) (s : State) :
    (s.portStream draw).extractLsb' 2 2 = (streamKind s.ses.streamRb <<< 2).extractLsb' 2 2 ∧
      (s.portStream draw).extractLsb' 4 4 = 0 ∧
      (s.portStream draw).extractLsb' 8 8 = (streamRaw s.ses.streamRb <<< 8).extractLsb' 8 8 := by
  obtain ⟨-, hkind4, hkind8⟩ := streamKind_bits s.ses.streamRb
  simp only [State.portStream, BitVec.extractLsb'_or]
  refine ⟨?_, ?_, ?_⟩
  · rw [extractLsb'_portFlag _ _ (by decide), extractLsb'_portBit _ (by decide),
      extractLsb'_shiftLeft_below (streamRaw s.ses.streamRb) (by decide)]
    simp
  · rw [extractLsb'_portFlag _ _ (by decide), extractLsb'_portBit _ (by decide), hkind4,
      extractLsb'_shiftLeft_below _ (by decide)]
    simp
  · rw [extractLsb'_portFlag _ _ (by decide), extractLsb'_portBit _ (by decide), hkind8]
    simp

theorem portCfgFlags_bits (draw : BitVec 16) (s : State) :
    (s.portCfgFlags draw).getLsbD 0 = s.ses.cfgRx.getD (draw.getLsbD 0) ∧
      (s.portCfgFlags draw).getLsbD 1 = s.ses.cfgRy.getD (draw.getLsbD 1) ∧
      (s.portCfgFlags draw).getLsbD 2 = s.ses.cfgXy.getD (draw.getLsbD 2) ∧
      (s.portCfgFlags draw).extractLsb' 3 13 = 0 := by
  have hbit : ∀ i, (s.portCfgFlags draw).getLsbD i =
      (decide (0 = i) && s.ses.cfgRx.getD (draw.getLsbD i) || decide (1 = i) && s.ses.cfgRy.getD (draw.getLsbD i)
        || decide (2 = i) && s.ses.cfgXy.getD (draw.getLsbD i)) := by
    intro i
    simp only [State.portCfgFlags, BitVec.getLsbD_or, getLsbD_portFlag _ (n := 0) (by decide),
      getLsbD_portFlag _ (n := 1) (by decide), getLsbD_portFlag _ (n := 2) (by decide)]
  refine ⟨(hbit 0).trans (by simp), (hbit 1).trans (by simp), (hbit 2).trans (by simp), ?_⟩
  simp only [State.portCfgFlags, BitVec.extractLsb'_or]
  rw [extractLsb'_portFlag _ _ (by decide), extractLsb'_portFlag _ _ (by decide), extractLsb'_portFlag _ _ (by decide)]
  simp

/-! ## The report (RN 11 to 21) -/

/-- REPORT_HDR of a report: its finger count and the present bits of its slots. -/
theorem reportHdr_some {s : State} {r : Report} (h : s.lastReport = some r) (draw : BitVec 16) :
    (s.portReportHdr draw).extractLsb' 0 3 = r.fc ∧
      (∀ i, i < 5 → (s.portReportHdr draw).getLsbD (3 + i) = (r.position i).isSome) ∧
      (s.portReportHdr draw).extractLsb' 8 8 = 0 := by
  have hhdr : s.portReportHdr draw =
      r.fc.setWidth 16 ||| portBit (r.position 0).isSome 3 ||| portBit (r.position 1).isSome 4
        ||| portBit (r.position 2).isSome 5 ||| portBit (r.position 3).isSome 6
        ||| portBit (r.position 4).isSome 7 := by
    rw [State.portReportHdr, h]
  have hfc : ∀ i, 3 ≤ i → (r.fc.setWidth 16).getLsbD i = false := fun i hi => by
    rw [BitVec.getLsbD_setWidth, BitVec.getLsbD_of_ge _ i hi, Bool.and_false]
  rw [hhdr]
  refine ⟨?_, fun i hi => ?_, ?_⟩
  · simp only [BitVec.extractLsb'_or]
    rw [extractLsb'_setWidth _ (by decide), extractLsb'_portBit _ (by decide), extractLsb'_portBit _ (by decide),
      extractLsb'_portBit _ (by decide), extractLsb'_portBit _ (by decide), extractLsb'_portBit _ (by decide)]
    simp
  · simp only [BitVec.getLsbD_or, getLsbD_portBit, hfc (3 + i) (by omega)]
    obtain rfl | rfl | rfl | rfl | rfl : i = 0 ∨ i = 1 ∨ i = 2 ∨ i = 3 ∨ i = 4 := by omega
    all_goals simp
  · simp only [BitVec.extractLsb'_or]
    rw [extractLsb'_setWidth_above _ (by decide), extractLsb'_portBit _ (by decide), extractLsb'_portBit _ (by decide),
      extractLsb'_portBit _ (by decide), extractLsb'_portBit _ (by decide), extractLsb'_portBit _ (by decide)]
    simp

/-- REPORT_HDR without a report: the draw's bits in both its fields. -/
theorem reportHdr_none {s : State} (h : s.lastReport = none) (draw : BitVec 16) :
    (s.portReportHdr draw).extractLsb' 0 3 = draw.extractLsb' 0 3 ∧
      (∀ i, i < 5 → (s.portReportHdr draw).getLsbD (3 + i) = draw.getLsbD (3 + i)) ∧
      (s.portReportHdr draw).extractLsb' 8 8 = 0 := by
  have hhdr : s.portReportHdr draw = draw &&& 0x00FF := by rw [State.portReportHdr, h]
  have hlow : (0x00FF : BitVec 16).extractLsb' 0 3 = BitVec.allOnes 3 := rfl
  have hhigh : (0x00FF : BitVec 16).extractLsb' 8 8 = 0 := rfl
  have hmask : ∀ i, i < 5 → (0x00FF : BitVec 16).getLsbD (3 + i) = true := by decide
  rw [hhdr, BitVec.extractLsb'_and, BitVec.extractLsb'_and, hlow, hhigh]
  refine ⟨BitVec.and_allOnes, fun i hi => ?_, BitVec.and_zero⟩
  rw [BitVec.getLsbD_and, hmask i hi, Bool.and_true]

/-- The registers of slot `i`. -/
theorem portValue_slot {i : Nat} (hi : i < 5) (draw : BitVec 16) (s : State) :
    s.portValue (12 + 2 * i) draw = s.portReportX i draw ∧ s.portValue (13 + 2 * i) draw = s.portReportY i draw := by
  obtain rfl | rfl | rfl | rfl | rfl : i = 0 ∨ i = 1 ∨ i = 2 ∨ i = 3 ∨ i = 4 := by omega
  all_goals exact ⟨rfl, rfl⟩

/-- Settles O47: RN 2 to RN 21 in their order, each field by the lemma on its kind. -/
theorem portFields : Obligations.PortFields := by
  intro s draw r slot
  obtain ⟨hpower, hpowerOk, hrb, hrbOk, hpowerAbove⟩ := portPower_bits draw s
  obtain ⟨hstream, hstreamOk⟩ := portStream_flags draw s
  obtain ⟨hkind, hgap, hraw⟩ := portStream_fields draw s
  obtain ⟨hfx, hfy, hfxy, hflagsAbove⟩ := portCfgFlags_bits draw s
  obtain ⟨hwidth, hwidthAbove⟩ := extractLsb'_portField s.ses.width draw
  obtain ⟨hheight, hheightAbove⟩ := extractLsb'_portField s.ses.height draw
  have hstreamRb : match s.ses.streamRb with
      | none => (r 6).extractLsb' 2 2 = 0 ∧ (r 6).extractLsb' 8 8 = 0
      | some .on => (r 6).extractLsb' 2 2 = 1 ∧ (r 6).extractLsb' 8 8 = 0
      | some .off => (r 6).extractLsb' 2 2 = 2 ∧ (r 6).extractLsb' 8 8 = 0
      | some (.unrecognised v) => (r 6).extractLsb' 2 2 = 3 ∧ (r 6).extractLsb' 8 8 = v := by
    rcases hrb : s.ses.streamRb with _ | _ | _ | v <;> rw [hrb] at hkind hraw
    · exact ⟨hkind, hraw⟩
    · exact ⟨hkind, hraw⟩
    · exact ⟨hkind, hraw⟩
    · rw [streamKind_unrecognised] at hkind
      exact ⟨hkind, hraw.trans (extractLsb'_shiftLeft v (by decide))⟩
  obtain ⟨hcause, hcauseAbove⟩ :
      (r 10).extractLsb' 0 4 = (match s.faultCause with | .none => 0 | .normalizerDivZero => 1) ∧
      (r 10).extractLsb' 4 12 = 0 := by
    change (s.faultCause.code.setWidth 16).extractLsb' 0 4 = _ ∧ (s.faultCause.code.setWidth 16).extractLsb' 4 12 = 0
    cases s.faultCause <;> exact ⟨rfl, rfl⟩
  obtain ⟨hfc, hpresent, hhdrAbove⟩ :
      (r 11).extractLsb' 0 3 = (s.lastReport.map Report.fc).getD (draw.extractLsb' 0 3) ∧
      (∀ i, i < 5 → (r 11).getLsbD (3 + i) = if s.lastReport.isSome then (slot i).isSome else draw.getLsbD (3 + i)) ∧
      (r 11).extractLsb' 8 8 = 0 := by
    cases hreport : s.lastReport with
    | none => exact reportHdr_none hreport draw
    | some p =>
      have hslot : ∀ i, slot i = p.position i := fun i => by simp only [slot, hreport]; rfl
      simp only [hslot]
      exact reportHdr_some hreport draw
  refine ⟨portField_word _ draw, hwidth, hwidthAbove, hheight, hheightAbove, hpower, hpowerOk, hrb, hrbOk, hpowerAbove,
    hstream, hstreamOk, hstreamRb, hgap, portField_word _ draw, portField_word _ draw, hfx, hfy, hfxy, hflagsAbove,
    hcause, hcauseAbove, hfc, hpresent, hhdrAbove, fun i hi => ?_⟩
  obtain ⟨hx, hy⟩ := portValue_slot hi draw s
  obtain ⟨hxlow, hxhigh⟩ := extractLsb'_portField ((slot i).map Prod.fst) draw
  obtain ⟨hylow, hyhigh⟩ := extractLsb'_portField ((slot i).map Prod.snd) draw
  exact ⟨(congrArg _ hx).trans hxlow, (congrArg _ hx).trans hxhigh, (congrArg _ hy).trans hylow,
    (congrArg _ hy).trans hyhigh⟩

end Sys2Proof.Proofs.StatusPort
end

/-! What an operation keeps and where it can end: the idle states, the outcomes of ATTACH, the power transitions, the
frame of a DISPATCH and that of a catalog command (44_lifecycle.md R206, R210, R214, R225, R226, 41_message_catalog.md
R130). -/

section
namespace Sys2Proof.Proofs.Lifecycle

open Sys2Proof Sys2Proof.Machine Sys2Proof.Safety Sys2Proof.Proofs.Ticks Sys2Proof.Proofs.Location
  Sys2Proof.Proofs.Steps Sys2Proof.Proofs.Invariant

/-! ## Between operations (R225) -/

theorem op_ne_idle (l : Label) : l.name.op ≠ .idle := by cases l <;> exact fun h => (nomatch h)

theorem step_none_of_idle {s : State} (h : s.curOp = .idle) : s.step = none := by
  unfold State.curOp at h
  split at h
  · assumption
  · next l _ => exact absurd h (op_ne_idle l)

/-- Settles O54: each clause from the kind of rest that `Quiet` allows. -/
theorem idleInvariants : Obligations.IdleInvariants := by
  intro s hinv hidle
  obtain ⟨-, hheld, -⟩ := (inv_iff s).mp hinv
  have hquiet := hheld.1 (step_none_of_idle hidle)
  refine ⟨idleLife_of_quiet hquiet, ?_⟩
  rcases hquiet.1 with ⟨hlife, hres, hses, -, hen, hpend⟩ | ⟨hlife, hall, hen⟩ | ⟨hlife, hall, hen, hpend⟩
  · have hnot : ¬(s.life = .ready ∨ s.life = .suspended) := by
      rcases hlife with h | h <;> rw [h] <;> rintro (h | h) <;> cases h
    have hready : s.life ≠ .ready := fun h => hnot (.inl h)
    refine ⟨by simp [hen, hready], by simp [hpend], by simp [hnot, hres], by simp [hlife, hres, hses], ?_⟩
    simp [hnot, hses]
  · obtain ⟨hpins, hirq, hbus, hhost, hrst, hint, ⟨hsmx, hsmy, hrx, hry, hxy, hmode, -⟩, hfw, hwidth, hheight⟩ := hall
    simp [hen, hlife, hpins, hirq, hbus, hhost, hsmx, hsmy, hrx, hry, hxy, hmode, hfw, hwidth, hheight]
  · obtain ⟨hpins, hirq, hbus, hhost, hrst, hint, ⟨hsmx, hsmy, hrx, hry, hxy, hmode, -⟩, hfw, hwidth, hheight⟩ := hall
    simp [hen, hpend, hlife, hpins, hirq, hbus, hhost, hsmx, hsmy, hrx, hry, hxy, hmode, hfw, hwidth, hheight]

/-! ## Where an operation can end -/

/-- The steps at whose start their operation can end. -/
def endsAt : Label → Bool
  | .a0 _ | .a1 _ | .a20 | .b7 | .s0 | .s6 | .u0 | .u9 | .x0 | .x1 | .x8 | .f0 | .f2 _ | .f3 _ => true
  | .i3 _ | .i5 | .i6 | .i6e _ _ | .i7 | .i8 | .i9 => true
  | _ => false

theorem releaseBegin_step {held : Bool} {c : Call} {next : Label} {s : State} (hstep : s.step ≠ none) :
    (s.releaseBegin held c next).step ≠ none := by
  rcases releaseBegin_cases held c next s with ⟨-, h⟩ | ⟨-, h⟩
  · rw [h]; exact hstep
  · rw [h]; nofun

theorem intReleaseBegin_step {next : Label} {s : State} (hstep : s.step ≠ none) :
    (s.intReleaseBegin next).step ≠ none := by
  unfold State.intReleaseBegin
  split
  · exact hstep
  · nofun

theorem lastReleaseBegin_step {next : Label} {s : State} (hstep : s.step ≠ none) :
    (s.lastReleaseBegin next).step ≠ none := by
  unfold State.lastReleaseBegin
  split
  · exact hstep
  · nofun

/-- A step that is no end of its list leaves an operation in flight. -/
theorem labelBegin_step {l : Label} {s t : State} (hend : endsAt l = false) (hstep : s.step ≠ none)
    (h : labelBegin l s = .ok t) : t.step ≠ none := by
  cases l with
  | a5 => obtain ⟨m, -, rfl⟩ := readReg_map_ok.mp h; exact hstep
  | a18 =>
    obtain ⟨x, -, h⟩ := readReg_bind_ok.mp h
    obtain ⟨y, -, rfl⟩ := readReg_map_ok.mp h
    exact hstep
  | b2 | b3 | b4 | x3 | x4 | x5 => cases h; exact releaseBegin_step hstep
  | b5 | x6 => cases h; exact intReleaseBegin_step hstep
  | b6 | x7 => cases h; exact lastReleaseBegin_step hstep
  | a3 | a4 | a6 | a7 | a8 | a9 | a10 | a12 | a13 | a15 | a16 | s2 | s3 | s4 | u1 | u2 | u3 | u4 | u5 | u6 | f1 | i2
  | i4 => cases h; exact hstep
  | a2 | a11 | a14 | a17 | a19 | b1 | s1 | s5 | u7 | u8 | x2 | i1 => cases h; nofun
  | _ => cases hend

theorem onDone_step {r : Reply} {s t : State} (hs : s.step ≠ none) (ht : t.step ≠ none) :
    (r.onDone s t).step ≠ none := by
  cases r with
  | done => exact ht
  | _ => exact hs

theorem helloAnswered_step (count : Int) (bytes : List Byte) (s : State) :
    (s.helloAnswered count bytes).step ≠ none := by
  unfold State.helloAnswered State.helloFailed
  dsimp only
  split_ifs <;> nofun

/-- Only DISPATCH ends with an answer (R242, R246). -/
theorem labelAnswer_step {l : Label} {r : Reply} {s : State} (hop : l.name.op ≠ .dispatch) (hstep : s.step ≠ none) :
    (labelAnswer l r s).step ≠ none := by
  cases l with
  | a3 =>
    cases r with
    | pin h => cases h <;> nofun
    | _ => exact hstep
  | a4 =>
    cases r with
    | pin h => cases h <;> nofun
    | _ => exact hstep
  | a6 =>
    cases r with
    | opened ok => cases ok <;> nofun
    | _ => exact hstep
  | a18 =>
    cases r with
    | registered ok => cases ok <;> nofun
    | _ => exact hstep
  | a9 =>
    cases r with
    | received count bytes => exact helloAnswered_step count bytes s
    | _ => exact hstep
  | a5 | a7 | a8 | a12 | a15 | b2 | b3 | b4 | b5 | b6 | s3 | u2 | u5 | x3 | x4 | x5 | x6 | x7 =>
    exact onDone_step hstep nofun
  | i2 | i4 | i6e => exact absurd rfl hop
  | _ => exact hstep

/-! ## Where a step's move leads -/

/-- After a step's move the sequencer stands there still, at a later step of the operation, or at no step. -/
def LeadsTo (l : Label) (t : State) : Prop :=
  t.step = some l ∨ (∃ l', t.step = some l' ∧ l'.name.op = l.name.op ∧ rank l' < rank l) ∨ t.step = none

theorem labelMove_leads {l : Label} {s t : State} (hstep : s.step = some l) (h : LabelMove l s t) : LeadsTo l t := by
  cases h with
  | issue noted => exact .inl (noted.step.trans hstep)
  | enter noted => exact .inl (noted.step.trans hstep)
  | goto noted later =>
    obtain ⟨hop, hrank, -⟩ := (follows_iff _ _).mp later
    exact .inr (.inl ⟨_, rfl, hop, hrank⟩)
  | finish noted => exact .inr (.inr rfl)

theorem returnMove_leads {l : Label} {s t : State} (h : ReturnMove l s t) : LeadsTo l t ∧ t.step ≠ none := by
  cases h with
  | goto noted later =>
    obtain ⟨hop, hrank, -⟩ := (follows_iff _ _).mp later
    exact ⟨.inr (.inl ⟨_, rfl, hop, hrank⟩), nofun⟩
  | finger at_ =>
    rw [at_]
    exact ⟨.inr (.inl ⟨_, rfl, rfl, Nat.lt_succ_self 2⟩), nofun⟩

/-- An answer leads no further than the step's own rank (I6 goes on at its next sub-step). -/
theorem answerMove_leads {l : Label} {s t : State} (hstep : s.step = some l) (h : AnswerMove l s t) :
    (∃ l', t.step = some l' ∧ l'.name.op = l.name.op ∧ rank l' ≤ rank l) ∨ t.step = none := by
  cases h with
  | ignored => exact .inl ⟨l, hstep, rfl, le_rfl⟩
  | goto noted op later => exact .inl ⟨_, rfl, op, later⟩
  | finish => exact .inr rfl

/-! ## The outcomes of ATTACH (R206) -/

/-- What an ATTACH accepted in Cold has not touched before A2. -/
def Untouched (s t : State) : Prop :=
  t.life = .cold ∧ t.fault = false ∧ t.ses = s.ses ∧ t.res = s.res ∧ t.irqEn = s.irqEn

/-- How an ATTACH ends: at A20, at A1 or at B7. -/
def AttachDone (s t : State) : Prop :=
  t.life = .ready ∧ t.lastResult = .ok ∨ Untouched s t ∧ t.lastResult = .config ∨
    t.life = .detached ∧ t.lastResult = .init

/-- An ATTACH that was accepted in the state `s` is under way, untouched up to A1, or it has ended. -/
structure AttachRun (s t : State) : Prop where
  inv : Inv t
  label : ∀ l, t.step = some l → l.name.op = .attach ∧ (27 ≤ rank l → Untouched s t)
  done : t.step = none → AttachDone s t

theorem attachRun_at {s t : State} {l : Label} (hinv : Inv t) (hstep : t.step = some l) (hop : l.name.op = .attach)
    (huntouched : 27 ≤ rank l → Untouched s t) : AttachRun s t :=
  ⟨hinv, fun l' h => by cases hstep.symm.trans h; exact ⟨hop, huntouched⟩, fun h => nomatch hstep.symm.trans h⟩

theorem attachRun_done {s t : State} (hinv : Inv t) (hstep : t.step = none) (hdone : AttachDone s t) :
    AttachRun s t :=
  ⟨hinv, fun _ h => (nomatch hstep.symm.trans h), fun _ => hdone⟩

/-- The two steps of ATTACH before it writes anything. -/
theorem early_label {l : Label} (h : 27 ≤ rank l) :
    ∃ cfg, l = .a0 cfg ∨ l = .a1 cfg := by
  cases l with
  | a0 cfg => exact ⟨cfg, .inl rfl⟩
  | a1 cfg => exact ⟨cfg, .inr rfl⟩
  | _ => simp [rank] at h

theorem early_not_called {l : Label} (h : 27 ≤ rank l) (r : Reply) (s : State) :
    calledAt l = none ∧ labelAnswer l r s = s := by
  obtain ⟨cfg, rfl | rfl⟩ := early_label h <;> exact ⟨rfl, rfl⟩

/-- The start of a step of ATTACH. -/
theorem attachRun_begun {s a b : State} {l : Label} (hstep : a.step = some l) (hop : l.name.op = .attach)
    (huntouched : 27 ≤ rank l → Untouched s a) (hinv : Inv b) (h : labelBegin l a = .ok b) : AttachRun s b := by
  by_cases hearly : 27 ≤ rank l
  · have hfrom := huntouched hearly
    obtain ⟨hlife, hfault, hses, hres, hen⟩ := hfrom
    obtain ⟨cfg, rfl | rfl⟩ := early_label hearly
    · have haccept : a.refusalOf .attach = none :=
        (refusalOf_eq_none_iff .attach a).mpr ⟨.inl hfault, by rw [hlife]; rfl⟩
      have hb : b = a.goto (.a1 cfg) := by
        rcases accept_cases .attach (.a1 cfg) a with ⟨-, hgoto⟩ | ⟨r, hrefused, -⟩
        · exact (Except.ok.inj h).symm.trans hgoto
        · exact nomatch haccept.symm.trans hrefused
      subst hb
      exact attachRun_at hinv rfl rfl fun _ => ⟨hlife, hfault, hses, hres, hen⟩
    · have hb : b = a.checkConfig cfg := (Except.ok.inj h).symm
      unfold State.checkConfig at hb
      split at hb
      · subst hb
        refine attachRun_done hinv rfl (.inr (.inl ⟨?_, rfl⟩))
        simp only [Untouched, State.finish_life, State.finish_fault, State.finish_ses, State.finish_res,
          State.finish_irqEn]
        exact ⟨hlife, hfault, hses, hres, hen⟩
      · subst hb
        exact attachRun_at hinv rfl rfl fun hlate => absurd hlate (by simp [rank])
  · by_cases hend : endsAt l = true
    · cases l with
      | a20 =>
        cases h
        exact attachRun_done hinv rfl (.inl ⟨by rw [State.finish_life], rfl⟩)
      | b7 =>
        cases h
        exact attachRun_done hinv rfl (.inr (.inr ⟨by rw [State.finish_life], rfl⟩))
      | a0 | a1 => exact absurd (by simp [rank]) hearly
      | _ => simp [endsAt, Label.name, StepName.op] at hend hop
    · have hgoes := labelBegin_step (by simpa using hend) (by rw [hstep]; nofun) h
      rcases labelBegin_move h with ⟨-, v, rfl, -⟩ | hmove
      · cases hop
      · rcases labelMove_leads hstep hmove with hsame | ⟨l', hl', hop', hrank⟩ | hnone
        · exact attachRun_at hinv hsame hop fun h => absurd h hearly
        · exact attachRun_at hinv hl' (hop'.trans hop) fun h => absurd (h.trans hrank.le) hearly
        · exact absurd hnone hgoes

theorem untouched_popTurn {s a : State} (h : Untouched s a) : Untouched s a.popTurn := by
  simpa only [Untouched, State.popTurn_life, State.popTurn_fault, State.popTurn_ses, State.popTurn_res,
    State.popTurn_irqEn] using h

/-- Every tick of an ATTACH that is under way. -/
theorem attachRun_tick {s a b : State} (hrun : AttachRun s a) (hgoing : a.step.isSome = true)
    (htick : tick a = .moved b) : AttachRun s b := by
  have hinv := tick_inv hrun.inv htick
  obtain ⟨hlocated, -, -⟩ := (inv_iff a).mp hrun.inv
  obtain ⟨l, hstep⟩ := Option.isSome_iff_exists.mp hgoing
  obtain ⟨hop, huntouched⟩ := hrun.label l hstep
  have hcalled : ∀ o, l = UnitOp.caller o → ¬27 ≤ rank l := fun o hcaller hearly => by
    obtain ⟨hnone, -⟩ := early_not_called hearly .done a
    rw [hcaller, calledAt_caller] at hnone
    cases hnone
  cases tick_move htick with
  | dropped => exact attachRun_at hinv hstep hop huntouched
  | @unitAnswered c d r rest o u t call next fits unit move =>
    obtain ⟨hcaller, -, -⟩ := hlocated.unit o u unit
    have hl := Option.some.inj (hstep.symm.trans hcaller)
    have hb : b.step = some l := by cases move <;> exact hstep
    exact attachRun_at hinv hb hop fun h => absurd h (hcalled o hl)
  | @labelAnswered c d r rest l' call next fits unit step =>
    obtain rfl : l' = l := Option.some.inj (step.symm.trans hstep)
    by_cases hearly : 27 ≤ rank l'
    · obtain ⟨-, hsame⟩ := early_not_called hearly r ((taken rest a).answered c d r)
      rw [hsame]
      rw [hsame] at hinv
      exact attachRun_at hinv hstep hop huntouched
    · have hgoes := labelAnswer_step (l := l') (r := r) (s := (taken rest a).answered c d r) (by rw [hop]; nofun)
        (fun h => nomatch hstep.symm.trans h)
      rcases answerMove_leads (s := (taken rest a).answered c d r) hstep (labelAnswer_move l' r _) with
        ⟨l'', hl', hop', hrank⟩ | hnone
      · exact attachRun_at hinv hl' (hop'.trans hop) fun h => absurd (h.trans hrank) hearly
      · exact absurd hnone hgoes
  | idleAnswered call next unit step => exact nomatch hstep.symm.trans step
  | @unitStepped o u t call unit move =>
    obtain ⟨hcaller, -, -⟩ := hlocated.unit o u unit
    have hl := Option.some.inj (hstep.symm.trans hcaller)
    have hb : b.step = some l := by cases move <;> exact (State.popTurn_step a).trans hstep
    exact attachRun_at hinv hb hop fun h => absurd h (hcalled o hl)
  | @returned l' r t call unit step ur move =>
    obtain ⟨o, hcaller, -, -, hkind⟩ := hlocated.result r ur
    obtain rfl : l' = l := Option.some.inj (step.symm.trans hstep)
    obtain rfl : l' = UnitOp.caller o := Option.some.inj (step.symm.trans hcaller)
    rcases labelReturn_move (by simpa using ur) move with ⟨-, v, hv, hmis⟩ | hmove
    · exact absurd (hkind v hv) hmis
    · obtain ⟨hsame | ⟨l'', hl', hop', hrank⟩ | hnone, hgoes⟩ := returnMove_leads hmove
      · exact attachRun_at hinv hsame hop fun h => absurd h (hcalled o rfl)
      · exact attachRun_at hinv hl' (hop'.trans hop) fun h => absurd (h.trans hrank.le) (hcalled o rfl)
      · exact absurd hnone hgoes
  | @begun l' t call unit step ur move =>
    obtain rfl : l' = l := Option.some.inj (step.symm.trans hstep)
    exact attachRun_begun (a := a.popTurn) (by simpa using hstep) hop (fun h => untouched_popTurn (huntouched h)) hinv
      move

/-- Settles O34: the run of an accepted ATTACH ends in one of `AttachDone`, and the invariant says what is held
there. -/
theorem attachOutcomes : Obligations.AttachOutcomes := by
  intro cfg s t hinv hrest hlife hfault hexec hdone
  rw [exec_of_firstLabel (l := .a0 cfg) rfl hrest] at hexec
  have hstart : AttachRun s ((s.takePort (.attach cfg)).takeRequest (.a0 cfg)) := by
    refine attachRun_at (inv_takeRequest (i := .attach cfg) (inv_takePort hinv _) (takePort_atRest hrest) rfl) rfl rfl
      fun _ => ?_
    obtain ⟨q, moves, n, hport⟩ := Arbiter.takePort_frame (.attach cfg) s
    rw [hport]
    exact ⟨hlife, hfault, rfl, rfl, rfl⟩
  have hrun : AttachRun s t :=
    run_keeps (fun a b hgoing htick h => attachRun_tick h hgoing htick) hstart hexec
  obtain ⟨-, hheld, -⟩ := (inv_iff t).mp hrun.inv
  have hquiet := hheld.1 hdone
  rcases hrun.done hdone with ⟨hready, hok⟩ | ⟨⟨hcold, -, hses, hres, hen⟩, hconfig⟩ | ⟨hdetached, hinit⟩
  · obtain ⟨hall, hen⟩ := allHeld_of_quiet hquiet hready
    exact .inl ⟨hready, hok, hall, hen⟩
  · exact .inr (.inl ⟨hcold, hconfig, hses, hres, hen⟩)
  · refine .inr (.inr ⟨hdetached, hinit, ?_⟩)
    rcases hquiet.1 with ⟨-, hnone⟩ | ⟨hready, -⟩ | ⟨hsuspended, -⟩
    · exact hnone
    · exact nomatch hdetached.symm.trans hready
    · exact nomatch hdetached.symm.trans hsuspended

/-! ## The power transitions (R210, R214) -/

/-- What a SUSPEND or a RESUME that was accepted holds at each of its steps, of LIFE and the interrupt. -/
def PowerAt (l : Label) (t : State) : Prop :=
  match l with
  | .s0 => t.life = .ready ∧ t.fault = false
  | .s2 | .s3 | .s4 | .s5 => t.irqEn = false ∧ t.irqPend = false
  | .s6 => t.irqEn = false ∧ t.irqPend = false ∧ t.life = .suspended
  | .u0 => t.life = .suspended ∧ t.fault = false
  | .s1 | .u1 | .u2 | .u3 | .u4 | .u5 | .u6 | .u7 => True
  | .u8 => t.irqEn = true
  | .u9 => t.irqEn = true ∧ t.life = .ready
  | _ => False

/-- How a SUSPEND and a RESUME end. -/
def PowerDone : Op → State → Prop
  | .suspend, t => t.life = .suspended ∧ t.lastResult = .ok ∧ t.irqEn = false ∧ t.irqPend = false
  | .resume, t => t.life = .ready ∧ t.lastResult = .ok ∧ t.irqEn = true
  | _, _ => False

/-- A power transition is under way, or it has ended. -/
structure PowerRun (op : Op) (t : State) : Prop where
  label : ∀ l, t.step = some l → l.name.op = op ∧ PowerAt l t
  done : t.step = none → PowerDone op t

theorem powerRun_at {op : Op} {t : State} {l : Label} (hstep : t.step = some l) (hop : l.name.op = op)
    (hat : PowerAt l t) : PowerRun op t :=
  ⟨fun l' h => by cases hstep.symm.trans h; exact ⟨hop, hat⟩, fun h => nomatch hstep.symm.trans h⟩

theorem powerRun_done {op : Op} {t : State} (hstep : t.step = none) (hdone : PowerDone op t) : PowerRun op t :=
  ⟨fun _ h => (nomatch hstep.symm.trans h), fun _ => hdone⟩

theorem powerAt_congr {l : Label} {s t : State} (h : PowerAt l s) (hlife : t.life = s.life) (hfault : t.fault = s.fault)
    (hen : t.irqEn = s.irqEn) (hpend : t.irqPend = s.irqPend) : PowerAt l t := by
  unfold PowerAt at h ⊢
  rw [hlife, hfault, hen, hpend]
  exact h

theorem powerAt_popTurn {l : Label} {s : State} (h : PowerAt l s) : PowerAt l s.popTurn :=
  powerAt_congr h (by simp) (by simp) (by simp) (by simp)

/-- A step of a power transition at its start. -/
theorem powerRun_begun {l : Label} {s t : State} (hstep : s.step = some l) (hat : PowerAt l s)
    (h : labelBegin l s = .ok t) : PowerRun l.name.op t := by
  cases l with
  | s0 =>
    obtain ⟨hlife, hfault⟩ := hat
    have hnone : s.refusalOf .suspend = none := (refusalOf_eq_none_iff .suspend s).mpr ⟨.inl hfault, by rw [hlife]; rfl⟩
    rcases accept_cases .suspend .s1 s with ⟨-, hgoto⟩ | ⟨r, hrefused, -⟩
    · cases (Except.ok.inj h).symm.trans hgoto
      exact powerRun_at rfl rfl trivial
    · exact nomatch hnone.symm.trans hrefused
  | u0 =>
    obtain ⟨hlife, hfault⟩ := hat
    have hnone : s.refusalOf .resume = none := (refusalOf_eq_none_iff .resume s).mpr ⟨.inl hfault, by rw [hlife]; rfl⟩
    rcases accept_cases .resume .u1 s with ⟨-, hgoto⟩ | ⟨r, hrefused, -⟩
    · cases (Except.ok.inj h).symm.trans hgoto
      exact powerRun_at rfl rfl trivial
    · exact nomatch hnone.symm.trans hrefused
  | s1 => cases h; exact powerRun_at rfl rfl ⟨rfl, rfl⟩
  | s2 | s3 | s4 | u1 | u2 | u3 | u4 | u5 | u6 => cases h; exact powerRun_at hstep rfl hat
  | s5 =>
    cases h
    obtain ⟨hen, hpend⟩ := hat
    exact powerRun_at rfl rfl ⟨hen, hpend, rfl⟩
  | s6 =>
    cases h
    obtain ⟨hen, hpend, hlife⟩ := hat
    exact powerRun_done rfl ⟨by simpa using hlife, rfl, by simpa using hen, by simpa using hpend⟩
  | u7 => cases h; exact powerRun_at rfl rfl rfl
  | u8 => cases h; exact powerRun_at rfl rfl ⟨hat, rfl⟩
  | u9 =>
    cases h
    obtain ⟨hen, hlife⟩ := hat
    exact powerRun_done rfl ⟨by simpa using hlife, rfl, by simpa using hen⟩
  | _ => exact hat.elim

/-- A write or a read-back of a power transition goes on to the next step, whatever it returned. -/
theorem powerRun_returned {o : UnitOp} {r : UnitResult} {s t : State} (hat : PowerAt (UnitOp.caller o) s)
    (hkind : ∀ v, r = .ok v → ReturnsKind o v) (h : labelReturn (UnitOp.caller o) r s = .ok t) :
    PowerRun (UnitOp.caller o).name.op t := by
  cases o with
  | powerWrite on => cases on <;> cases h <;> cases r <;> exact powerRun_at rfl rfl hat
  | packetWrite on => cases on <;> cases h <;> cases r <;> exact powerRun_at rfl rfl hat
  | powerRead =>
    cases h
    rcases r with v | e
    · obtain ⟨b, rfl⟩ := hkind v rfl
      exact powerRun_at rfl rfl trivial
    · exact powerRun_at rfl rfl trivial
  | packetRead =>
    cases h
    rcases r with v | e
    · obtain ⟨b, rfl⟩ := hkind v rfl
      exact powerRun_at rfl rfl trivial
    · exact powerRun_at rfl rfl trivial
  | _ => exact hat.elim

/-- The waits of a power transition: their answers go on to the next step. -/
theorem powerRun_answered {l : Label} {s : State} (r : Reply) (hstep : s.step = some l) (hat : PowerAt l s) :
    PowerRun l.name.op (labelAnswer l r s) := by
  cases l with
  | s3 | u2 | u5 =>
    cases r with
    | done => exact powerRun_at rfl rfl hat
    | _ => exact powerRun_at hstep rfl hat
  | s0 | s1 | s2 | s4 | s5 | s6 | u0 | u1 | u3 | u4 | u6 | u7 | u8 | u9 => exact powerRun_at hstep rfl hat
  | _ => exact hat.elim

theorem powerRun_tick {op : Op} {a b : State} (hlocated : Located a) (hrun : PowerRun op a)
    (hgoing : a.step.isSome = true) (htick : tick a = .moved b) : PowerRun op b := by
  obtain ⟨l, hstep⟩ := Option.isSome_iff_exists.mp hgoing
  obtain ⟨rfl, hat⟩ := hrun.label l hstep
  cases tick_move htick with
  | dropped => exact powerRun_at hstep rfl (powerAt_congr hat rfl rfl rfl rfl)
  | unitAnswered call next fits unit move =>
    cases move <;> exact powerRun_at hstep rfl (powerAt_congr hat rfl rfl rfl rfl)
  | @labelAnswered c d r rest l' call next fits unit step =>
    obtain rfl : l' = l := Option.some.inj (step.symm.trans hstep)
    exact powerRun_answered (s := (taken rest a).answered c d r) r hstep (powerAt_congr hat rfl rfl rfl rfl)
  | idleAnswered call next unit step => exact nomatch hstep.symm.trans step
  | unitStepped call unit move =>
    have hstep' := (State.popTurn_step a).trans hstep
    cases move <;> exact powerRun_at hstep' rfl (powerAt_congr (powerAt_popTurn hat) rfl rfl rfl rfl)
  | @returned l' r t call unit step ur move =>
    obtain ⟨o, hcaller, -, -, hkind⟩ := hlocated.result r ur
    obtain rfl : l' = l := Option.some.inj (step.symm.trans hstep)
    obtain rfl : l' = UnitOp.caller o := Option.some.inj (step.symm.trans hcaller)
    exact powerRun_returned (powerAt_popTurn hat) hkind move
  | @begun l' t call unit step ur move =>
    obtain rfl : l' = l := Option.some.inj (step.symm.trans hstep)
    exact powerRun_begun (by simpa using hstep) (powerAt_popTurn hat) move

/-- A power transition that starts at rest, where its step 0 accepts it. -/
theorem powerDone_of_exec {i : Instr} {l : Label} {s t : State} (hfirst : firstLabel i = some l)
    (hrest : s.atRest = true) (hat : PowerAt l s) (hexec : exec i s = .next t) (hdone : t.step = none) :
    PowerDone l.name.op t := by
  rw [exec_of_firstLabel hfirst hrest] at hexec
  have hstart : PowerRun l.name.op ((s.takePort i).takeRequest l) := by
    obtain ⟨q, moves, n, hport⟩ := Arbiter.takePort_frame i s
    rw [hport]
    exact powerRun_at rfl rfl (powerAt_congr hat rfl rfl rfl rfl)
  have hrun : Located t ∧ PowerRun l.name.op t :=
    run_keeps (P := fun u => Located u ∧ PowerRun l.name.op u)
      (fun a b hgoing htick ⟨hlocated, hrun⟩ =>
        ⟨tick_located hlocated htick, powerRun_tick hlocated hrun hgoing htick⟩)
      ⟨located_takeRequest hrest hfirst, hstart⟩ hexec
  exact hrun.2.done hdone

/-- Settles O37: both lists go on whatever a unit operation returns, and end at S6 and U9 alone. -/
theorem powerTransitionsBestEffort : Obligations.PowerTransitionsBestEffort :=
  ⟨fun _ _ hrest hlife hfault => powerDone_of_exec (i := .suspend) (l := .s0) rfl hrest ⟨hlife, hfault⟩,
    fun _ _ hrest hlife hfault => powerDone_of_exec (i := .resume) (l := .u0) rfl hrest ⟨hlife, hfault⟩⟩

/-! ## The frame of a DISPATCH (R226) -/

/-- No register but IRQ_PEND, RX, LAST_REPORT, LAST_RESULT, FAULT and FAULT_CAUSE is written. -/
def DispatchKeeps (s t : State) : Prop :=
  t.ses = s.ses ∧ t.res = s.res ∧ t.life = s.life ∧ t.irqEn = s.irqEn ∧ t.hostReq = s.hostReq ∧ t.tx = s.tx ∧
    t.par = s.par

theorem dispatchKeeps_finish {s u : State} (h : DispatchKeeps s u) (r : ResultCode) (v : Option Bool) :
    DispatchKeeps s (u.finish r v) := by
  simpa only [DispatchKeeps, State.finish_ses, State.finish_res, State.finish_life, State.finish_irqEn,
    State.finish_hostReq, State.finish_tx, State.finish_par] using h

theorem dispatchKeeps_popTurn {s t : State} (h : DispatchKeeps s.popTurn t) : DispatchKeeps s t := by
  simpa only [DispatchKeeps, State.popTurn_ses, State.popTurn_res, State.popTurn_life, State.popTurn_irqEn,
    State.popTurn_hostReq, State.popTurn_tx, State.popTurn_par] using h

theorem labelBegin_dispatchKeeps {l : Label} {s t : State} (hop : l.name.op = .dispatch)
    (h : labelBegin l s = .ok t) : DispatchKeeps s t := by
  have hdiag : ∀ c info, DispatchKeeps s (s.diag c info) := fun _ _ => ⟨rfl, rfl, rfl, rfl, rfl, rfl, rfl⟩
  have hsame : DispatchKeeps s s := ⟨rfl, rfl, rfl, rfl, rfl, rfl, rfl⟩
  cases l with
  | i1 | i2 | i4 => cases h; exact hsame
  | i3 acked =>
    cases h
    unfold State.checkAck
    split
    · exact dispatchKeeps_finish (hdiag ..) ..
    · exact hsame
  | i5 =>
    obtain ⟨f, -, rfl⟩ := readReg_map_ok.mp h
    split_ifs
    · exact hsame
    · exact hsame
    · exact hsame
    · exact hsame
    · exact dispatchKeeps_finish hsame ..
  | i6 =>
    obtain ⟨report, ⟨evs, rfl⟩ | rfl⟩ := beginReport_cases h
    · exact hsame
    · exact dispatchKeeps_finish ⟨rfl, rfl, rfl, rfl, rfl, rfl, rfl⟩ ..
  | i6e j evs =>
    cases h
    unfold State.emitEvents
    split
    · exact dispatchKeeps_finish hsame ..
    · exact hsame
  | i7 =>
    obtain ⟨f, -, rfl⟩ := readReg_map_ok.mp h
    exact dispatchKeeps_finish (hdiag ..) ..
  | i8 | i9 => cases h; exact dispatchKeeps_finish (hdiag ..) ..
  | _ => cases hop

theorem labelAnswer_dispatchKeeps {l : Label} (hop : l.name.op = .dispatch) (r : Reply) (s : State) :
    DispatchKeeps s (labelAnswer l r s) := by
  have hdiag : ∀ c info, DispatchKeeps s (s.diag c info) := fun _ _ => ⟨rfl, rfl, rfl, rfl, rfl, rfl, rfl⟩
  have hsame : DispatchKeeps s s := ⟨rfl, rfl, rfl, rfl, rfl, rfl, rfl⟩
  cases l with
  | i2 => cases r <;> exact hsame
  | i4 =>
    cases r with
    | received count bytes =>
      show DispatchKeeps s (s.frameReceived count bytes)
      unfold State.frameReceived
      split
      · exact dispatchKeeps_finish (hdiag ..) ..
      · exact hsame
    | _ => exact hsame
  | i6e j evs =>
    cases r with
    | done =>
      show DispatchKeeps s (s.eventEmitted j evs)
      rcases eventEmitted_cases j evs s with ⟨-, hend⟩ | ⟨e, rest, -, hnext⟩
      · rw [hend]; exact dispatchKeeps_finish hsame ..
      · rw [hnext]; exact hsame
    | _ => exact hsame
  | i1 | i3 | i5 | i6 | i7 | i8 | i9 => exact hsame
  | _ => cases hop

/-- No step of DISPATCH calls a unit operation. -/
theorem calledAt_dispatch {l : Label} (hop : l.name.op = .dispatch) : calledAt l = none := by
  cases l <;> first | rfl | cases hop

/-- Settles O24: a step of DISPATCH at its start and at its answer, and the moves that the sequencer takes for it. -/
theorem dispatchWrites : Obligations.DispatchWrites := by
  intro l s t hstep hop hunit htick
  change DispatchKeeps s t
  cases tick_move htick with
  | dropped => exact ⟨rfl, rfl, rfl, rfl, rfl, rfl, rfl⟩
  | unitAnswered call next fits unit => exact nomatch hunit.symm.trans unit
  | @labelAnswered c d r rest l' call next fits unit step =>
    obtain rfl : l' = l := Option.some.inj (step.symm.trans hstep)
    exact labelAnswer_dispatchKeeps hop r ((taken rest s).answered c d r)
  | idleAnswered => exact ⟨rfl, rfl, rfl, rfl, rfl, rfl, rfl⟩
  | unitStepped call unit => exact nomatch hunit.symm.trans unit
  | @returned l' r t call unit step ur move =>
    obtain rfl : l' = l := Option.some.inj (step.symm.trans hstep)
    rw [labelReturn_of_no_call (calledAt_dispatch hop)] at move
    exact dispatchKeeps_popTurn (labelBegin_dispatchKeeps hop move)
  | @begun l' t call unit step ur move =>
    obtain rfl : l' = l := Option.some.inj (step.symm.trans hstep)
    exact dispatchKeeps_popTurn (labelBegin_dispatchKeeps hop move)

/-! ## The frame of a catalog command (41_message_catalog.md R130) -/

/-- No register but TX and RX is written, and the step that called stands where it stood. -/
def CatalogKeeps (s t : State) : Prop := SameRegisters s t ∧ t.step = s.step ∧ t.hostWait = s.hostWait

theorem catalogKeeps_trans {s t u : State} (h : CatalogKeeps s t) (h' : CatalogKeeps t u) : CatalogKeeps s u := by
  unfold CatalogKeeps SameRegisters at *
  simp_all only [and_self]

/-- A unit operation leaves alone all that `CatalogKeeps` reads: it writes the frame buffers, the call and the trace. -/
theorem catalogKeeps_frame (s : State) (unit : Option (UnitOp × TStep)) (ur : Option UnitResult) (call : Option Call)
    (tx rx : Option (List Byte)) (inbox : List Input) (trace : List Event) (clock : Nat) :
    CatalogKeeps s { s with
      unit := unit, ur := ur, call := call, tx := tx, rx := rx, inbox := inbox, trace := trace, clock := clock } :=
  ⟨⟨rfl, rfl, rfl, rfl, rfl, rfl, rfl, rfl, rfl, rfl, rfl⟩, rfl, rfl⟩

theorem unit_tick_keeps {s t : State} (hgoing : s.unit.isSome = true) (htick : tick s = .moved t) :
    CatalogKeeps s t := by
  obtain ⟨ou, hunit⟩ := Option.isSome_iff_exists.mp hgoing
  cases tick_move htick with
  | dropped => exact catalogKeeps_frame s ..
  | unitAnswered call next fits unit move => cases move <;> exact catalogKeeps_frame s ..
  | labelAnswered call next fits unit => exact nomatch hunit.symm.trans unit
  | idleAnswered call next unit => exact nomatch hunit.symm.trans unit
  | unitStepped call unit move =>
    have hpop : CatalogKeeps s s.popTurn := by
      rcases popTurn_cases s with ⟨b, rest, -, hpop⟩ | ⟨-, hpop⟩ <;> rw [hpop] <;> exact catalogKeeps_frame s ..
    refine catalogKeeps_trans hpop ?_
    cases move <;> exact catalogKeeps_frame s.popTurn ..
  | returned call unit => exact nomatch hunit.symm.trans unit
  | begun call unit => exact nomatch hunit.symm.trans unit

theorem runUnit_keeps {s t : State} (h : runUnit s = .next t) : CatalogKeeps s t :=
  run_keeps (P := CatalogKeeps s) (fun _ _ hgoing htick hs => catalogKeeps_trans hs (unit_tick_keeps hgoing htick))
    (catalogKeeps_frame s ..) h

/-- Settles O12: a command runs its unit operation, whose every tick keeps the registers, or it waits. -/
theorem catalogFrame : Obligations.CatalogFrame := by
  intro op s t hexec
  change CatalogKeeps s t
  have hsame : CatalogKeeps s s := catalogKeeps_frame s ..
  rw [exec_command, execUnit] at hexec
  split at hexec
  · split at hexec
    · exact runUnit_keeps hexec
    · cases hexec; exact hsame
  · split at hexec
    · exact catalogKeeps_trans (catalogKeeps_frame s ..) (runUnit_keeps (s := s.unitEnter op) hexec)
    · cases hexec; exact hsame

end Sys2Proof.Proofs.Lifecycle
end

/-! A unit operation run to its return, sub-step by sub-step, for every answer of the bus (40_transport.md R110 to R112,
41_message_catalog.md R130 to R142). -/

section
namespace Sys2Proof.Proofs.Transport

open Sys2Proof Sys2Proof.Machine Sys2Proof.Safety Sys2Proof.Proofs.Ticks Sys2Proof.Proofs.Location

/-! ## One tick -/

/-- The sequencer's own move, no call being outstanding and no other agent first. -/
theorem tick_advance {s t : State} (hasync : s.asyncNext = false) (hcall : s.call = none)
    (hadvance : s.popTurn.advance = some (.ok t)) : tick s = .moved t := by
  simp [tick, hasync, hcall, hadvance]

/-- The answer to the outstanding call. -/
theorem tick_answer {s : State} {c : Call} {d : Nat} {r : Reply} {rest : List Input} (hcall : s.call = some c)
    (hinbox : s.inbox = .reply d r :: rest) (hfits : c.fits r = true) :
    tick s = .moved ((taken rest s).takeAnswer c d r) := by
  simp [tick, State.asyncNext, Input.isAsync, hcall, hinbox, hfits, taken]

theorem tick_unitStep {s t : State} {op : UnitOp} {u : TStep} (hasync : s.asyncNext = false) (hcall : s.call = none)
    (hunit : s.unit = some (op, u)) (hmove : s.popTurn.unitStep op u = .ok t) : tick s = .moved t := by
  refine tick_advance hasync hcall ?_
  simp only [State.advance, State.popTurn_unit, hunit, hmove]

theorem tick_unitAnswer {s : State} {op : UnitOp} {u : TStep} {c : Call} {d : Nat} {r : Reply} {rest : List Input}
    (hcall : s.call = some c) (hinbox : s.inbox = .reply d r :: rest) (hfits : c.fits r = true)
    (hunit : s.unit = some (op, u)) : tick s = .moved (((taken rest s).answered c d r).unitAnswer op u r) := by
  rw [tick_answer hcall hinbox hfits, takeAnswer_unit (s := taken rest s) hunit]

theorem popTurn_of_reply {s : State} {d : Nat} {r : Reply} {rest : List Input} (h : s.inbox = .reply d r :: rest) :
    s.popTurn = s := by
  simp [State.popTurn, h]

/-! ## A run to the return of the unit operation -/

/-- What a unit operation can still do: an answer takes a move from the inbox and gives back at most one tick. -/
def unitBound (s : State) : Nat :=
  2 * s.inbox.length + if s.unit.isNone then 0 else if s.call.isNone then 2 else 1

theorem unit_tick_bound {s t : State} (hgoing : s.unit.isSome = true) (htick : tick s = .moved t) :
    unitBound t < unitBound s := by
  obtain ⟨⟨op, u⟩, hunit⟩ := Option.isSome_iff_exists.mp hgoing
  have hpop := popTurn_inbox_le s
  cases tick_move htick with
  | dropped call next => simp [unitBound, taken, next, hunit, call]
  | unitAnswered call next fits unit move =>
    cases move with
    | ignored => simp [unitBound, State.answered, taken, next, hunit, call]; omega
    | goto => simp [unitBound, State.answered, State.unitGoto, buffers, taken, next, hunit, call]; omega
    | ret => simp [unitBound, State.answered, State.unitReturn, buffers, taken, next, hunit, call]
  | labelAnswered call next fits unit => exact nomatch hunit.symm.trans unit
  | idleAnswered call next unit => exact nomatch hunit.symm.trans unit
  | unitStepped call unit move =>
    cases move with
    | issue => simp [unitBound, State.issue, buffers, hunit, call]; omega
    | ret => simp [unitBound, State.unitReturn, hunit, call]; omega
  | returned call unit => exact nomatch hunit.symm.trans unit
  | begun call unit => exact nomatch hunit.symm.trans unit

theorem runUnit_of_ticks {s t : State} (hticks : Ticks (fun a => a.unit.isSome) s t) (hdone : t.unit = none) :
    runUnit s = .next t := by
  refine run_of_ticks (P := fun _ => True) (bound := unitBound)
    (fun a b _ hgoing htick => ⟨trivial, unit_tick_bound hgoing htick⟩) trivial hticks (.inl (by rw [hdone]; rfl)) ?_
  unfold unitBound State.fuel
  split_ifs <;> omega

/-! ## The four sub-steps -/

/-- A unit operation that stands at the start of a sub-step past T1: `s` is the state that it was entered in. -/
def inFlight (op : UnitOp) (u : TStep) (rx : Option (List Byte)) (rest : List Input) (time : Nat) (events : List Event)
    (s : State) : State :=
  { s with
    unit := some (op, u), call := none, tx := none, rx := rx, inbox := rest, clock := s.clock + time,
    trace := s.trace ++ events }

/-- A run that goes on while the unit operation is in flight at the step that called it. -/
def GoesOn (going : State → Bool) (s : State) : Prop :=
  ∀ a : State, a.unit.isSome = true → a.step = s.step → going a = true

theorem ticks_two {going : State → Bool} {a b c : State} (hab : going a = true ∧ tick a = .moved b)
    (hbc : going b = true ∧ tick b = .moved c) : Ticks going a c :=
  .head hab (.single hbc)

section
variable {going : State → Bool} {s : State} {op : UnitOp} {rx : Option (List Byte)} {rest : List Input}
  {time d : Nat} {events : List Event}

/-- T1: the frame is sent, and its answer goes to `State.sendEnd` (R110). -/
theorem send_ticks (hgoing : GoesOn going s) (hunit : s.unit = some (op, .t1)) (hcall : s.call = none) {c : Int}
    (hinbox : s.inbox = .reply d (.sent c) :: rest) :
    Ticks going s (((taken rest (s.sendBegin op)).answered (.busSend (op.frame s.par)) d (.sent c)).sendEnd op c) := by
  refine ticks_two (b := s.sendBegin op) ⟨hgoing s (by rw [hunit]; rfl) rfl, ?_⟩
    ⟨hgoing (s.sendBegin op) ((congrArg Option.isSome hunit).trans rfl) rfl, ?_⟩
  · refine tick_unitStep (Steps.asyncNext_of_reply hinbox) hcall hunit ?_
    rw [popTurn_of_reply hinbox]
    rfl
  · exact tick_unitAnswer (s := s.sendBegin op) (u := .t1) rfl hinbox rfl hunit

/-- T2: the settle wait. -/
theorem settle_ticks (hgoing : GoesOn going s) :
    Ticks going (inFlight op .t2 rx (.reply d .done :: rest) time events s)
      (inFlight op .t3 rx rest (time + (s.par.tSettleMs + d)) (events ++ [.call (.wait s.par.tSettleMs) .done]) s) := by
  have hend : inFlight op .t3 rx rest (time + (s.par.tSettleMs + d))
      (events ++ [.call (.wait s.par.tSettleMs) .done]) s =
      ((taken rest ((inFlight op .t2 rx (.reply d .done :: rest) time events s).issue (.wait s.par.tSettleMs))).answered
        (.wait s.par.tSettleMs) d .done).unitAnswer op .t2 .done := by
    simp [inFlight, taken, State.issue, State.answered, State.unitAnswer, State.unitGoto, Call.record, Call.minTime,
      Nat.add_assoc]
  rw [hend]
  refine ticks_two (b := (inFlight op .t2 rx (.reply d .done :: rest) time events s).issue (.wait s.par.tSettleMs))
    ⟨hgoing _ rfl rfl, ?_⟩ ⟨hgoing _ rfl rfl, ?_⟩
  · exact tick_unitStep (op := op) (u := .t2) rfl rfl rfl rfl
  · exact tick_unitAnswer (op := op) (u := .t2) rfl rfl rfl rfl

/-- T3: the receive, its answer taken by `State.recvEnd` (R111). -/
theorem recv_ticks (hgoing : GoesOn going s) {c : Int} {b : List Byte}
    (hfits : c ≠ (s.par.lit.cmdLen : Int) ∨ s.par.lit.cmdLen ≤ b.length) :
    Ticks going (inFlight op .t3 rx (.reply d (.received c b) :: rest) time events s)
      ((inFlight op .t3 rx rest (time + d)
        (events ++ [.call (.busRecv s.par.lit.cmdLen) (Call.record (.busRecv s.par.lit.cmdLen) (.received c b))])
        s).recvEnd op c b) := by
  have hend : inFlight op .t3 rx rest (time + d)
      (events ++ [.call (.busRecv s.par.lit.cmdLen) (Call.record (.busRecv s.par.lit.cmdLen) (.received c b))]) s =
      (taken rest ((inFlight op .t3 rx (.reply d (.received c b) :: rest) time events s).issue
        (.busRecv s.par.lit.cmdLen))).answered (.busRecv s.par.lit.cmdLen) d (.received c b) := by
    simp [inFlight, taken, State.issue, State.answered, Call.minTime, Nat.add_assoc]
  rw [hend]
  refine ticks_two
    (b := (inFlight op .t3 rx (.reply d (.received c b) :: rest) time events s).issue (.busRecv s.par.lit.cmdLen))
    ⟨hgoing _ rfl rfl, ?_⟩ ⟨hgoing _ rfl rfl, ?_⟩
  · exact tick_unitStep (op := op) (u := .t3) rfl rfl rfl rfl
  · exact tick_unitAnswer (op := op) (u := .t3) rfl rfl ((fits_received _ _ _).mpr hfits) rfl

/-- T4: the marker decides, and the turn that was handed out is taken (R112). -/
theorem marker_tick {a : State} {f : List Byte} (hunit : a.unit = some (op, .t4)) (hcall : a.call = none)
    (hrx : a.rx = some f) (hrest : NoneMoves a.inbox) :
    tick a = .moved ((taken (afterTurn a.inbox) a).unitReturn
      (if byteAt f 0 = a.par.lit.mkResponse then .ok (unitValue a.par op f) else .err (.protocol (byteAt f 0)))) := by
  have hasync : a.asyncNext = false := by
    unfold State.asyncNext
    split
    · next i is hinbox => exact hrest i (by rw [hinbox]; rfl)
    · rfl
  have hpop : a.popTurn = taken (afterTurn a.inbox) a := by
    rcases popTurn_cases a with ⟨b, is, hturn, hpop⟩ | ⟨hno, hpop⟩
    · rw [hpop, hturn]; rfl
    · have hafter : afterTurn a.inbox = a.inbox := by
        unfold afterTurn
        split
        · next b is hturn => exact absurd hturn (hno b is)
        · rfl
      rw [hpop, hafter]
      rfl
  refine tick_unitStep hasync hcall hunit ?_
  rw [hpop]
  rcases checkMarker_cases (op := op) (s := taken (afterTurn a.inbox) a) hrx with ⟨hbad, hend⟩ | ⟨hgood, hend⟩
  · rw [if_neg (show ¬byteAt f 0 = a.par.lit.mkResponse from hbad)]; exact hend
  · rw [if_pos (show byteAt f 0 = a.par.lit.mkResponse from hgood)]; exact hend

/-! ## A whole `transact` and a whole write, with the default literals -/

theorem cmdLen_of_lit (hlit : s.par.lit = Config.lit) : s.par.lit.cmdLen = 4 := by rw [hlit]; rfl

variable (hgoing : GoesOn going s) (hlit : s.par.lit = Config.lit) (hunit : s.unit = some (op, .t1))
  (hcall : s.call = none)
include hgoing hlit hunit hcall

/-- A wrong send count ends it before the wait. -/
theorem send_fails {c : Int} (hc : c ≠ 4) (hinbox : s.inbox = .reply d (.sent c) :: rest) :
    Ticks going s (returned (.err (.transportSend 4 c)) s.rx rest d
      [.call (.busSend (op.frame s.par)) (.sent c)] s) := by
  have hlen := cmdLen_of_lit hlit
  have hticks := send_ticks hgoing hunit hcall hinbox
  rcases sendEnd_cases op c ((taken rest (s.sendBegin op)).answered (.busSend (op.frame s.par)) d (.sent c)) with
    ⟨-, hend⟩ | ⟨hgood, -⟩ | ⟨hgood, -⟩
  · rw [hend] at hticks
    change Ticks going s (returned (.err (.transportSend s.par.lit.cmdLen c)) s.rx rest d
      [.call (.busSend (op.frame s.par)) (.sent c)] s) at hticks
    rwa [hlen] at hticks
  · exact absurd (hgood.trans (congrArg Int.ofNat hlen)) hc
  · exact absurd (hgood.trans (congrArg Int.ofNat hlen)) hc

/-- A write without a response is done with its send (R142). -/
theorem send_writes (hwrite : op.isWrite = true) (halone : s.par.writeExpectsResponse = false)
    (hinbox : s.inbox = .reply d (.sent 4) :: rest) :
    Ticks going s (returned (.ok .unit) s.rx rest d [.call (.busSend (op.frame s.par)) (.sent 4)] s) := by
  have hlen := cmdLen_of_lit hlit
  have hticks := send_ticks hgoing hunit hcall hinbox
  rcases sendEnd_cases op 4 ((taken rest (s.sendBegin op)).answered (.busSend (op.frame s.par)) d (.sent 4)) with
    ⟨hbad, -⟩ | ⟨-, -, -, hend⟩ | ⟨-, hresponse, -⟩
  · exact absurd (congrArg Int.ofNat hlen).symm hbad
  · rwa [hend] at hticks
  · rcases hresponse with h | h
    · exact nomatch hwrite.symm.trans h
    · exact nomatch halone.symm.trans h

section
variable (htransact : op.isWrite = false ∨ s.par.writeExpectsResponse = true)
include htransact

/-- A good send of a `transact` waits at T2. -/
theorem send_waits (hinbox : s.inbox = .reply d (.sent 4) :: rest) :
    Ticks going s (inFlight op .t2 s.rx rest d [.call (.busSend (op.frame s.par)) (.sent 4)] s) := by
  have hlen := cmdLen_of_lit hlit
  have hticks := send_ticks hgoing hunit hcall hinbox
  rcases sendEnd_cases op 4 ((taken rest (s.sendBegin op)).answered (.busSend (op.frame s.par)) d (.sent 4)) with
    ⟨hbad, -⟩ | ⟨-, hwrite, halone, -⟩ | ⟨-, -, hend⟩
  · exact absurd (congrArg Int.ofNat hlen).symm hbad
  · rcases htransact with h | h
    · exact nomatch hwrite.symm.trans h
    · exact nomatch h.symm.trans halone
  · rwa [hend] at hticks

/-- Up to the receive at T3. -/
theorem transact_receives {d1 d2 : Nat} (hinbox : s.inbox = .reply d1 (.sent 4) :: .reply d2 .done :: rest) :
    Ticks going s (inFlight op .t3 s.rx rest (d1 + (s.par.tSettleMs + d2))
      [.call (.busSend (op.frame s.par)) (.sent 4), .call (.wait s.par.tSettleMs) .done] s) :=
  (send_waits hgoing hlit hunit hcall htransact hinbox).trans (settle_ticks hgoing)

/-- A wrong receive count ends it before the marker check. -/
theorem transact_recv_fails {d1 d2 d3 : Nat} {c : Int} {b : List Byte} (hc : c ≠ 4)
    (hinbox : s.inbox = .reply d1 (.sent 4) :: .reply d2 .done :: .reply d3 (.received c b) :: rest) :
    Ticks going s (returned (.err (.transportRecv 4 c)) s.rx rest (d1 + (s.par.tSettleMs + d2) + d3)
      [.call (.busSend (op.frame s.par)) (.sent 4), .call (.wait s.par.tSettleMs) .done,
        .call (.busRecv 4) (.received c b)] s) := by
  have hlen := cmdLen_of_lit hlit
  have hbad : c ≠ (s.par.lit.cmdLen : Int) := by rw [hlen]; exact hc
  refine (transact_receives hgoing hlit hunit hcall htransact hinbox).trans ?_
  have hticks := recv_ticks (op := op) (rx := s.rx) (rest := rest) (time := d1 + (s.par.tSettleMs + d2)) (d := d3)
    (events := [.call (.busSend (op.frame s.par)) (.sent 4), .call (.wait s.par.tSettleMs) .done]) hgoing (b := b)
    (.inl hbad)
  have hrecord : Call.record (.busRecv s.par.lit.cmdLen) (.received c b) = .received c b := by
    simp [Call.record, hbad]
  rw [hrecord] at hticks
  rcases recvEnd_cases op c b (inFlight op .t3 s.rx rest (d1 + (s.par.tSettleMs + d2) + d3)
    ([.call (.busSend (op.frame s.par)) (.sent 4), .call (.wait s.par.tSettleMs) .done] ++
      [.call (.busRecv s.par.lit.cmdLen) (.received c b)]) s) with ⟨-, hend⟩ | ⟨hgood, -⟩
  · rw [hend] at hticks
    simp only [inFlight, State.unitReturn, hlen] at hticks
    exact hticks
  · exact absurd hgood hbad

/-- Four bytes are returned by their marker (R112). -/
theorem transact_replies {d1 d2 d3 : Nat} {m r1 r2 r3 : Byte} {more : List Byte} (hrest : NoneMoves rest)
    (hinbox : s.inbox =
      .reply d1 (.sent 4) :: .reply d2 .done :: .reply d3 (.received 4 (m :: r1 :: r2 :: r3 :: more)) :: rest) :
    Ticks going s (returned
      (if m = 0x52 then .ok (unitValue s.par op [m, r1, r2, r3]) else .err (.protocol m)) (some [m, r1, r2, r3])
      (afterTurn rest) (d1 + (s.par.tSettleMs + d2) + d3)
      [.call (.busSend (op.frame s.par)) (.sent 4), .call (.wait s.par.tSettleMs) .done,
        .call (.busRecv 4) (.received 4 [m, r1, r2, r3])] s) := by
  have hlen := cmdLen_of_lit hlit
  refine (transact_receives hgoing hlit hunit hcall htransact hinbox).trans ?_
  have hticks := recv_ticks (op := op) (rx := s.rx) (rest := rest) (time := d1 + (s.par.tSettleMs + d2)) (d := d3)
    (events := [.call (.busSend (op.frame s.par)) (.sent 4), .call (.wait s.par.tSettleMs) .done]) hgoing (c := 4)
    (b := m :: r1 :: r2 :: r3 :: more) (.inr (by rw [hlen]; simp))
  have hmark : s.par.lit.mkResponse = 0x52 := by rw [hlit]; rfl
  have hrecord : Call.record (.busRecv s.par.lit.cmdLen) (.received 4 (m :: r1 :: r2 :: r3 :: more)) =
      .received 4 [m, r1, r2, r3] := by rw [hlen]; rfl
  rw [hrecord] at hticks
  rcases recvEnd_cases op 4 (m :: r1 :: r2 :: r3 :: more) (inFlight op .t3 s.rx rest
    (d1 + (s.par.tSettleMs + d2) + d3)
    ([.call (.busSend (op.frame s.par)) (.sent 4), .call (.wait s.par.tSettleMs) .done] ++
      [.call (.busRecv s.par.lit.cmdLen) (.received 4 [m, r1, r2, r3])]) s) with ⟨hbad, -⟩ | ⟨-, hend⟩
  · exact absurd (congrArg Int.ofNat hlen).symm hbad
  rw [hend] at hticks
  simp only [inFlight, State.unitGoto, hlen] at hticks
  refine hticks.trans ?_
  have hreturn := marker_tick (op := op) (f := [m, r1, r2, r3]) (a := inFlight op .t4 (some [m, r1, r2, r3]) rest
    (d1 + (s.par.tSettleMs + d2) + d3) [.call (.busSend (op.frame s.par)) (.sent 4),
      .call (.wait s.par.tSettleMs) .done, .call (.busRecv 4) (.received 4 [m, r1, r2, r3])] s) rfl rfl rfl hrest
  have hmark' : (inFlight op .t4 (some [m, r1, r2, r3]) rest (d1 + (s.par.tSettleMs + d2) + d3)
    [.call (.busSend (op.frame s.par)) (.sent 4), .call (.wait s.par.tSettleMs) .done,
      .call (.busRecv 4) (.received 4 [m, r1, r2, r3])] s).par.lit.mkResponse = 0x52 := hmark
  rw [hmark'] at hreturn
  exact .single ⟨hgoing _ rfl rfl, hreturn⟩

end

end

/-! ## The commands (R130 to R142) -/

/-- No two unit operations have one instruction. -/
theorem instr_injective {o op : UnitOp} (h : o.instr = op.instr) : o = op := by
  have hall : ∀ a ∈ UnitOp.all, ∀ b ∈ UnitOp.all, a.instr = b.instr → a = b := by decide
  exact hall o (Encoding.mem_all o) op (Encoding.mem_all op) h

/-- On a free bus a command runs its unit operation from T1. -/
theorem exec_of_busFree {op : UnitOp} {s : State} (h : BusFree op.instr s) :
    ∃ ur, exec op.instr s = runUnit { s with unit := some (op, .t1), ur := ur } := by
  obtain ⟨hcall, hfree⟩ := h
  cases hunit : s.unit with
  | none =>
    refine ⟨none, ?_⟩
    rw [exec_command, execUnit_start op hunit hcall]
    rfl
  | some ou =>
    obtain ⟨o, u⟩ := ou
    obtain ⟨hinstr, rfl⟩ := hfree o u hunit
    obtain rfl := instr_injective hinstr
    refine ⟨s.ur, ?_⟩
    rw [exec_command, execUnit_continue o hunit, ← hunit]

theorem goesOn_unit (s : State) : GoesOn (fun a => a.unit.isSome) s := fun _ h _ => h

section
variable {s : State} {op : UnitOp} {rest : List Input} (hfree : BusFree op.instr s) (hlit : s.par.lit = Config.lit)
include hfree hlit

theorem exec_send_fails {d : Nat} {c : Int} (hc : c ≠ 4) (hinbox : s.inbox = .reply d (.sent c) :: rest) :
    exec op.instr s = .next (returned (.err (.transportSend 4 c)) s.rx rest d
      [.call (.busSend (op.frame s.par)) (.sent c)] s) := by
  obtain ⟨ur, hexec⟩ := exec_of_busFree hfree
  rw [hexec]
  exact runUnit_of_ticks (send_fails (s := { s with unit := some (op, .t1), ur := ur }) (goesOn_unit _) hlit rfl hfree.1
    hc hinbox) rfl

theorem exec_send_writes {d : Nat} (hwrite : op.isWrite = true) (halone : s.par.writeExpectsResponse = false)
    (hinbox : s.inbox = .reply d (.sent 4) :: rest) :
    exec op.instr s = .next (returned (.ok .unit) s.rx rest d [.call (.busSend (op.frame s.par)) (.sent 4)] s) := by
  obtain ⟨ur, hexec⟩ := exec_of_busFree hfree
  rw [hexec]
  exact runUnit_of_ticks (send_writes (s := { s with unit := some (op, .t1), ur := ur }) (goesOn_unit _) hlit rfl
    hfree.1 hwrite halone hinbox) rfl

variable (htransact : op.isWrite = false ∨ s.par.writeExpectsResponse = true)
include htransact

theorem exec_recv_fails {d1 d2 d3 : Nat} {c : Int} {b : List Byte} (hc : c ≠ 4)
    (hinbox : s.inbox = .reply d1 (.sent 4) :: .reply d2 .done :: .reply d3 (.received c b) :: rest) :
    exec op.instr s = .next (returned (.err (.transportRecv 4 c)) s.rx rest (d1 + (s.par.tSettleMs + d2) + d3)
      [.call (.busSend (op.frame s.par)) (.sent 4), .call (.wait s.par.tSettleMs) .done,
        .call (.busRecv 4) (.received c b)] s) := by
  obtain ⟨ur, hexec⟩ := exec_of_busFree hfree
  rw [hexec]
  exact runUnit_of_ticks (transact_recv_fails (s := { s with unit := some (op, .t1), ur := ur }) (goesOn_unit _) hlit
    rfl hfree.1 htransact hc hinbox) rfl

theorem exec_replies {d1 d2 d3 : Nat} {m r1 r2 r3 : Byte} {more : List Byte} (hrest : NoneMoves rest)
    (hinbox : s.inbox =
      .reply d1 (.sent 4) :: .reply d2 .done :: .reply d3 (.received 4 (m :: r1 :: r2 :: r3 :: more)) :: rest) :
    exec op.instr s = .next (returned
      (if m = 0x52 then .ok (unitValue s.par op [m, r1, r2, r3]) else .err (.protocol m)) (some [m, r1, r2, r3])
      (afterTurn rest) (d1 + (s.par.tSettleMs + d2) + d3)
      [.call (.busSend (op.frame s.par)) (.sent 4), .call (.wait s.par.tSettleMs) .done,
        .call (.busRecv 4) (.received 4 [m, r1, r2, r3])] s) := by
  obtain ⟨ur, hexec⟩ := exec_of_busFree hfree
  rw [hexec]
  exact runUnit_of_ticks (transact_replies (s := { s with unit := some (op, .t1), ur := ur }) (goesOn_unit _) hlit rfl
    hfree.1 htransact hrest hinbox) rfl

end

/-- A read is a `transact` of its frame, its value decoded as `unitValue` decodes it. -/
theorem transacts_of_read {op : UnitOp} {frame : Params → List Byte} {value : Params → Byte → Byte → Byte → UnitVal}
    (hread : op.isWrite = false) (hframe : ∀ p : Params, p.lit = Config.lit → op.frame p = frame p)
    (hvalue : ∀ (p : Params) (m r1 r2 r3 : Byte), p.lit = Config.lit →
      unitValue p op [m, r1, r2, r3] = value p r1 r2 r3) :
    Transacts op.instr frame value := by
  intro s d1 d2 d3 rest hfree hlit
  rw [← hframe s.par hlit]
  refine ⟨fun c hc => exec_send_fails hfree hlit hc, fun c b hc => exec_recv_fails hfree hlit (.inl hread) hc,
    fun m r1 r2 r3 more hrest hinbox => ?_⟩
  rw [← hvalue s.par m r1 r2 r3 hlit]
  exact exec_replies hfree hlit (.inl hread) hrest hinbox

/-- A write is a send, or a `transact` whose response is discarded (R142). -/
theorem writes_of_write {op : UnitOp} {frame : Params → List Byte} (hwrite : op.isWrite = true)
    (hframe : ∀ p : Params, p.lit = Config.lit → op.frame p = frame p) : Writes op.instr frame := by
  have hvalue : ∀ p f, unitValue p op f = .unit := fun p f => by
    cases op with
    | powerWrite | packetWrite => rfl
    | _ => cases hwrite
  constructor
  · intro s c d rest hfree hlit halone hinbox
    rw [← hframe s.par hlit]
    by_cases hc : c = 4
    · subst hc
      exact exec_send_writes hfree hlit hwrite halone hinbox
    · rw [if_neg hc]
      exact exec_send_fails hfree hlit hc hinbox
  · intro s d1 d2 d3 rest hfree hlit hexpects
    rw [← hframe s.par hlit]
    refine ⟨fun c hc => exec_send_fails hfree hlit hc, fun c b hc => exec_recv_fails hfree hlit (.inr hexpects) hc,
      fun m r1 r2 r3 more hrest hinbox => ?_⟩
    rw [← hvalue s.par [m, r1, r2, r3]]
    exact exec_replies hfree hlit (.inr hexpects) hrest hinbox

/-! ## The values of the reads, in plain arithmetic -/

theorem ofNat_shiftLeft (w n k : Nat) : BitVec.ofNat w (n <<< k) = BitVec.ofNat w n <<< k := by
  refine BitVec.eq_of_toNat_eq ?_
  rw [BitVec.toNat_shiftLeft, BitVec.toNat_ofNat, BitVec.toNat_ofNat, Nat.shiftLeft_eq, Nat.shiftLeft_eq,
    Nat.mod_mul_mod]

theorem ofNat_highHalf (w : Nat) (b : Byte) : BitVec.ofNat w (b.toNat &&& 0xF0) = (b &&& 0xF0).setWidth w := by
  rw [← BitVec.ofNat_toNat, BitVec.toNat_and]
  rfl

theorem fwVersionOf_eq (m r1 r2 r3 : Byte) :
    fwVersionOf [m, r1, r2, r3] = BitVec.ofNat 16 ((r2.toNat <<< 8) ||| (r3.toNat &&& 0xF0)) := by
  rw [BitVec.ofNat_or, ofNat_shiftLeft, ofNat_highHalf, BitVec.ofNat_toNat]
  rfl

theorem dimensionOf_eq (m r1 r2 r3 : Byte) :
    dimensionOf [m, r1, r2, r3] = BitVec.ofNat 12 (((r3.toNat &&& 0xF0) <<< 4) ||| r2.toNat) := by
  rw [BitVec.ofNat_or, ofNat_shiftLeft, ofNat_highHalf, BitVec.ofNat_toNat]
  rfl

theorem powerOf_eq {p : Params} (hlit : p.lit = Config.lit) (m r1 r2 r3 : Byte) :
    powerOf p [m, r1, r2, r3] =
      (let b := match p.pwrReadByte with | .r1 => r1 | .r2 => r2 | .r3 => r3
       (b.toNat >>> 3) &&& 1 == 1) := by
  have hbit : ∀ b : Byte, b.getLsbD 3 = ((b.toNat >>> 3) &&& 1 == 1) := fun b => by
    rw [BitVec.getLsbD, Nat.testBit_eq_decide_div_mod_eq, Nat.shiftRight_eq_div_pow, Nat.and_one_is_mod]
    rfl
  rw [powerOf, hlit]
  cases p.pwrReadByte <;> exact hbit _

theorem streamOf_eq {p : Params} (hlit : p.lit = Config.lit) (m r1 r2 r3 : Byte) :
    streamOf p [m, r1, r2, r3] =
      (let v := match p.pktReadByte with | .r1 => r1 | .r2 => r2 | .r3 => r3
       if v = 0x00 then .on else if v = 0x01 then .off else .unrecognised v) := by
  rw [streamOf, hlit]
  cases p.pktReadByte <;> rfl

/-! ## The rules of the catalog -/

theorem read_frame {p : Params} {op : UnitOp} (hlit : p.lit = Config.lit) (hread : op.isWrite = false) :
    op.frame p = [0x53, op.command {}, (op.readParams p).hi, (op.readParams p).lo] := by
  cases op with
  | powerWrite | packetWrite => cases hread
  | _ => simp only [UnitOp.frame, UnitOp.command, hlit]; rfl

/-- Settles O5: FW_VER's frame and its value. -/
theorem fwVerReadResult : Obligations.FwVerReadResult :=
  transacts_of_read (op := .fwVerRead) rfl (fun _ hlit => read_frame hlit rfl) fun _ m r1 r2 r3 _ =>
    congrArg UnitVal.fw (fwVersionOf_eq m r1 r2 r3)

/-- Settles O6: POWER's frame and its bit. -/
theorem powerReadResult : Obligations.PowerReadResult :=
  transacts_of_read (op := .powerRead) rfl (fun _ hlit => read_frame hlit rfl) fun _ m r1 r2 r3 hlit =>
    congrArg UnitVal.flag (powerOf_eq hlit m r1 r2 r3)

/-- Settles O7: FINGER's frame and its byte. -/
theorem fingerReadResult : Obligations.FingerReadResult :=
  transacts_of_read (op := .fingerRead) rfl (fun _ hlit => read_frame hlit rfl) fun _ _ _ _ _ _ => rfl

/-- Settles O8: PACKET's frame and its three values. -/
theorem packetReadResult : Obligations.PacketReadResult :=
  transacts_of_read (op := .packetRead) rfl (fun _ hlit => read_frame hlit rfl) fun _ m r1 r2 r3 hlit =>
    congrArg UnitVal.stream (streamOf_eq hlit m r1 r2 r3)

/-- Settles O9: the frames of WIDTH and HEIGHT and their common packing. -/
theorem dimensionReadResults : Obligations.DimensionReadResults :=
  ⟨transacts_of_read (op := .widthRead) rfl (fun _ hlit => read_frame hlit rfl) fun _ m r1 r2 r3 _ =>
      congrArg UnitVal.dim (dimensionOf_eq m r1 r2 r3),
    transacts_of_read (op := .heightRead) rfl (fun _ hlit => read_frame hlit rfl) fun _ m r1 r2 r3 _ =>
      congrArg UnitVal.dim (dimensionOf_eq m r1 r2 r3)⟩

/-- Settles O10: the frames of both power writes. -/
theorem powerWriteResult : Obligations.PowerWriteResult :=
  ⟨writes_of_write (op := .powerWrite true) rfl fun p hlit => Encoding.powerWrite_frame p hlit true,
    writes_of_write (op := .powerWrite false) rfl fun p hlit => Encoding.powerWrite_frame p hlit false⟩

/-- Settles O11: the frames of both packet writes. -/
theorem packetWriteResult : Obligations.PacketWriteResult :=
  ⟨writes_of_write (op := .packetWrite true) rfl fun p hlit => Encoding.packetWrite_frame p hlit true,
    writes_of_write (op := .packetWrite false) rfl fun p hlit => Encoding.packetWrite_frame p hlit false⟩

/-! ## The frames of the chip (R65, R93, R112) -/

/-- A response that is waited for is taken, and T4 returns it by its marker. -/
theorem execResponse_of_awaited {s : State} {op : UnitOp} {d : Nat} {m r1 r2 r3 : Byte} {more : List Byte}
    {rest : List Input} (hlit : s.par.lit = Config.lit) (hcall : s.call = some (.busRecv 4))
    (hunit : s.unit = some (op, .t3)) (hrest : NoneMoves rest)
    (hinbox : s.inbox = .reply d (.received 4 (m :: r1 :: r2 :: r3 :: more)) :: rest) :
    execResponse [m, r1, r2, r3] s = .next { s with
      call := none, unit := none
      ur := some (if m = 0x52 then .ok (unitValue s.par op [m, r1, r2, r3]) else .err (.protocol m))
      rx := some [m, r1, r2, r3], inbox := afterTurn rest, clock := s.clock + d
      trace := s.trace ++ [.call (.busRecv 4) (.received 4 [m, r1, r2, r3])] } := by
  have hlen := cmdLen_of_lit hlit
  have hmark : s.par.lit.mkResponse = 0x52 := by rw [hlit]; rfl
  have hawaits : (s.awaitsResponse && [m, r1, r2, r3].length == s.par.lit.cmdLen) = true := by
    rw [(Steps.awaitsResponse_iff s).mpr ⟨by rw [hcall, hlen], by rw [hunit]; rfl⟩, hlen]
    rfl
  have hreceived : s.receiveFrame [m, r1, r2, r3] = { s with
      call := none, unit := some (op, .t4), rx := some [m, r1, r2, r3], inbox := rest, clock := s.clock + d
      trace := s.trace ++ [.call (.busRecv 4) (.received 4 [m, r1, r2, r3])] } := by
    rw [receiveFrame_head (f := [m, r1, r2, r3]) (more := more) hinbox,
      takeAnswer_unit (s := { s with inbox := rest }) hunit]
    rcases recvEnd_cases op 4 [m, r1, r2, r3]
      (({ s with inbox := rest } : State).answered (.busRecv 4) d (.received 4 [m, r1, r2, r3])) with
      ⟨hbad, -⟩ | ⟨-, hend⟩
    · exact absurd (congrArg Int.ofNat hlen).symm hbad
    · refine hend.trans ?_
      simp [State.unitGoto, State.answered, Call.record, Call.minTime, hlen]
  rw [execResponse, if_pos hawaits, hreceived]
  have htick := marker_tick (op := op) (f := [m, r1, r2, r3]) (a := { s with
      call := none, unit := some (op, .t4), rx := some [m, r1, r2, r3], inbox := rest, clock := s.clock + d
      trace := s.trace ++ [.call (.busRecv 4) (.received 4 [m, r1, r2, r3])] }) rfl rfl rfl hrest
  have hreturn := runUnit_of_ticks (.single ⟨rfl, htick⟩) rfl
  rw [hmark] at hreturn
  exact hreturn

/-- Settles O13: the row of the response and that of the bad marker both run T3 and T4. -/
theorem responseReceived : Obligations.ResponseReceived := by
  intro s op d m r1 r2 r3 more rest hlit hcall hunit hrest hinbox
  have hmark : s.par.lit.mkResponse = 0x52 := by rw [hlit]; rfl
  have hdecode : decodeReply s.par [m, r1, r2, r3] =
      .ok (if m = 0x52 then .resp r1 r2 r3 else .respBadMarker m r1 r2 r3) := by
    rw [decodeReply, hmark]
    split_ifs <;> rfl
  exact (Steps.exec_of_decodeReply hdecode).trans (execResponse_of_awaited hlit hcall hunit hrest hinbox)

/-- Settles O14: a command starts on a free bus alone, and a frame is received by the receive that waits for it. -/
theorem outOfTurnFramesWait : Obligations.OutOfTurnFramesWait := by
  constructor
  · rintro op s (⟨hunit, hcall⟩ | ⟨o, u, hunit, hframe⟩)
    · have hbusy : ¬s.call.isNone = true := by simpa [Option.isSome_iff_ne_none] using hcall
      rw [exec_command, execUnit, hunit]
      exact if_neg hbusy
    · rw [exec_command, execUnit, hunit]
      exact if_neg hframe
  · intro i s hwait
    have hstays : ∀ {a : Bool} (b : Bool) (t : Host.Outcome State Fault Refusal), a = false →
        (if (a && b) = true then t else .next s) = .next s := by
      rintro a b t rfl
      rfl
    cases i with
    | resp | respBadMarker => exact hstays _ _ hwait
    | hello | helloMismatch => exact hstays _ _ hwait
    | irqReport | irqNoise | irqCalib | irqHello | irqOther => exact hstays _ _ hwait
    | _ => exact hwait.elim

end Sys2Proof.Proofs.Transport
end

/-! An operation run step by step over a script of answers: where it stands after each step, and what it has emitted
(44_lifecycle.md, 45_dispatcher.md). -/

section
namespace Sys2Proof.Proofs.Script

open Sys2Proof Sys2Proof.Machine Sys2Proof.Safety Sys2Proof.Proofs.Ticks Sys2Proof.Proofs.Location
  Sys2Proof.Proofs.Steps Sys2Proof.Proofs.Transport

/-! ## Where an operation stands -/

/-- The operation stands at the start of step `l`: `s` holds the registers as they are now, and the clock and the trace
as they were when it started; `time` has passed and `events` are emitted since. -/
def standing (l : Label) (rx : Option (List Byte)) (rest : List Input) (time : Nat) (events : List Event) (s : State) :
    State :=
  { s with
    step := some l, unit := none, call := none, ur := none, rx := rx, inbox := rest, clock := s.clock + time,
    trace := s.trace ++ events }

/-- The unit operation that step `l` called has returned `r`. -/
def resulted (l : Label) (r : UnitResult) (rx : Option (List Byte)) (rest : List Input) (time : Nat)
    (events : List Event) (s : State) : State :=
  { s with
    step := some l, unit := none, call := none, ur := some r, tx := none, rx := rx, inbox := rest,
    clock := s.clock + time, trace := s.trace ++ events }

/-- The ticks of one operation. -/
abbrev OpTicks : State → State → Prop := Ticks fun a => a.step.isSome

theorem settled_reply (d : Nat) (r : Reply) (rest : List Input) : Settled (.reply d r :: rest) := by
  intro i h
  cases h
  exact ⟨d, r, rfl⟩

theorem noneMoves_of_settled {rest : List Input} (h : Settled rest) : NoneMoves rest := by
  intro i hi
  obtain ⟨d, r, rfl⟩ := h i hi
  rfl

theorem afterTurn_of_settled {rest : List Input} (h : Settled rest) : afterTurn rest = rest := by
  unfold afterTurn
  split
  · next b is =>
    obtain ⟨d, r, hr⟩ := h (.turn b) rfl
    cases hr
  · rfl

section
variable {l : Label} {rx : Option (List Byte)} {rest : List Input} {time : Nat} {events : List Event} {s : State}

theorem diag_standing (c : DiagCode) (info : DiagInfo) :
    (standing l rx rest time events s).diag c info =
      standing l rx rest time (events ++ [.diag ⟨c, l.name.op, some l.name, info⟩]) s := by
  simp [standing, State.diag, State.emit, State.curOp, State.stepName]

theorem diag_resulted {r : UnitResult} (c : DiagCode) (info : DiagInfo) :
    (resulted l r rx rest time events s).diag c info =
      resulted l r rx rest time (events ++ [.diag ⟨c, l.name.op, some l.name, info⟩]) s := by
  simp [resulted, State.diag, State.emit, State.curOp, State.stepName]

/-- The end of a host request answers the host (R21). -/
theorem finish_standing (hop : l.name.op ≠ .dispatch) (code : ResultCode) (v : Option Bool) :
    (standing l rx rest time events s).finish code v =
      ended code rx rest time (events ++ [.respond code v]) s := by
  rw [finish_request (s := standing l rx rest time events s) hop]
  simp [standing, ended, State.emit]

/-- The end of a DISPATCH answers no one (R21, R273). -/
theorem finish_standing_dispatch (hop : l.name.op = .dispatch) (code : ResultCode) (v : Option Bool) :
    (standing l rx rest time events s).finish code v = ended code rx rest time events s :=
  finish_dispatch (s := standing l rx rest time events s) hop code v

/-! ## One step -/

/-- A step that calls no primitive. -/
theorem begin_ticks {t : State} (hrest : Settled rest)
    (hbegin : labelBegin l (standing l rx rest time events s) = .ok t) :
    OpTicks (standing l rx rest time events s) t := by
  refine .single ⟨rfl, tick_advance (Dispatcher.asyncNext_of_settled hrest) rfl ?_⟩
  rw [Dispatcher.popTurn_of_settled hrest]
  exact congrArg some hbegin

/-- A step that logs a diagnostic and goes on; `u` has the registers that the step writes. -/
theorem diag_ticks {next : Label} {u : State} {c : DiagCode} {info : DiagInfo} (hrest : Settled rest)
    (hbegin : labelBegin l (standing l rx rest time events s) =
      .ok (((standing l rx rest time events u).diag c info).goto next)) :
    OpTicks (standing l rx rest time events s)
      (standing next rx rest time (events ++ [.diag ⟨c, l.name.op, some l.name, info⟩]) u) := by
  rw [diag_standing] at hbegin
  exact begin_ticks hrest hbegin

/-- A step that ends its host request. -/
theorem finish_ticks {u : State} {code : ResultCode} {v : Option Bool} (hrest : Settled rest)
    (hop : l.name.op ≠ .dispatch)
    (hbegin : labelBegin l (standing l rx rest time events s) =
      .ok ((standing l rx rest time events u).finish code v)) :
    OpTicks (standing l rx rest time events s) (ended code rx rest time (events ++ [.respond code v]) u) := by
  rw [finish_standing hop] at hbegin
  exact begin_ticks hrest hbegin

/-- A step that calls a primitive, and its answer; `u` has the registers that the step writes before its call. -/
theorem call_ticks {u : State} {c : Call} {d : Nat} {r : Reply}
    (hbegin : labelBegin l (standing l rx (.reply d r :: rest) time events s) =
      .ok ((standing l rx (.reply d r :: rest) time events u).issue c))
    (hfits : c.fits r = true) :
    OpTicks (standing l rx (.reply d r :: rest) time events s)
      (labelAnswer l r (standing l rx rest (time + (c.minTime u.par + d)) (events ++ [.call c (c.record r)]) u)) := by
  refine (begin_ticks (settled_reply d r rest) hbegin).trans (.single ⟨rfl, ?_⟩)
  have hanswered : standing l rx rest (time + (c.minTime u.par + d)) (events ++ [.call c (c.record r)]) u =
      (taken rest ((standing l rx (.reply d r :: rest) time events u).issue c)).answered c d r := by
    simp [standing, taken, State.issue, State.answered, Nat.add_assoc]
  rw [hanswered,
    tick_answer (s := (standing l rx (.reply d r :: rest) time events u).issue c) (d := d) (r := r) rfl rfl hfits]
  exact congrArg Tick.moved (takeAnswer_label (l := l) rfl rfl c d r)

/-- The return of a unit operation to its step. -/
theorem return_ticks {t : State} {r : UnitResult} (hrest : Settled rest)
    (hreturn : labelReturn l r (resulted l r rx rest time events s) = .ok t) :
    OpTicks (resulted l r rx rest time events s) t := by
  refine .single ⟨rfl, tick_advance (Dispatcher.asyncNext_of_settled hrest) rfl ?_⟩
  rw [Dispatcher.popTurn_of_settled hrest]
  exact congrArg some hreturn

end

/-! ## A step that calls a unit operation -/

/-- What a `transact` of `op` returns to its step. -/
def exchangeResult (p : Params) (op : UnitOp) (x : Exchange) : UnitResult :=
  match x.outcome with
  | .ok f => .ok (unitValue p op f)
  | .error e => .err e

/-- What a write returns to its step. -/
def writeResult (w : WriteExchange) : UnitResult :=
  match w.failure with
  | none => .ok .unit
  | some e => .err e

theorem settled_answers (x : Exchange) (rest : List Input) : Settled (x.answers ++ rest) := by
  cases x <;> exact settled_reply _ _ _

theorem settled_writeAnswers (w : WriteExchange) (rest : List Input) : Settled (w.answers ++ rest) := by
  cases w with
  | send => exact settled_reply _ _ _
  | transact x => exact settled_answers x rest

/-- A `transact` in the exchange's terms. -/
theorem exchange_ticks {going : State → Bool} {s : State} {op : UnitOp} {rest : List Input} {x : Exchange}
    (hgoing : GoesOn going s) (hlit : s.par.lit = Config.lit) (hunit : s.unit = some (op, .t1)) (hcall : s.call = none)
    (htransact : op.isWrite = false ∨ s.par.writeExpectsResponse = true) (hproper : x.Proper) (hrest : Settled rest)
    (hinbox : s.inbox = x.answers ++ rest) :
    Ticks going s (returned (exchangeResult s.par op x) (x.rxAfter s.rx) rest (x.time s.par.tSettleMs)
      (x.events s.par.tSettleMs (op.frame s.par)) s) := by
  cases x with
  | sendFails d c => exact send_fails hgoing hlit hunit hcall hproper hinbox
  | recvFails d1 d2 d3 c b => exact transact_recv_fails hgoing hlit hunit hcall htransact hproper hinbox
  | replies d1 d2 d3 m r1 r2 r3 =>
    have hticks := transact_replies (more := []) hgoing hlit hunit hcall htransact (noneMoves_of_settled hrest) hinbox
    rw [afterTurn_of_settled hrest] at hticks
    have hresult : exchangeResult s.par op (.replies d1 d2 d3 m r1 r2 r3) =
        if m = 0x52 then .ok (unitValue s.par op [m, r1, r2, r3]) else .err (.protocol m) := by
      by_cases hm : m = 0x52
      · have houtcome : (Exchange.replies d1 d2 d3 m r1 r2 r3).outcome = .ok [m, r1, r2, r3] := if_pos hm
        rw [if_pos hm, exchangeResult, houtcome]
      · have houtcome : (Exchange.replies d1 d2 d3 m r1 r2 r3).outcome = .error (.protocol m) := if_neg hm
        rw [if_neg hm, exchangeResult, houtcome]
    rw [hresult]
    exact hticks

/-- A write in the exchange's terms. -/
theorem write_ticks {going : State → Bool} {s : State} {op : UnitOp} {rest : List Input} {w : WriteExchange}
    (hgoing : GoesOn going s) (hlit : s.par.lit = Config.lit) (hunit : s.unit = some (op, .t1)) (hcall : s.call = none)
    (hwrite : op.isWrite = true) (hproper : w.Proper s.par.writeExpectsResponse) (hrest : Settled rest)
    (hinbox : s.inbox = w.answers ++ rest) :
    Ticks going s (returned (writeResult w) (w.rxAfter s.rx) rest (w.time s.par.tSettleMs)
      (w.events s.par.tSettleMs (op.frame s.par)) s) := by
  cases w with
  | send d c =>
    by_cases hc : c = 4
    · subst hc
      exact send_writes hgoing hlit hunit hcall hwrite hproper hinbox
    · have hfails := send_fails hgoing hlit hunit hcall hc hinbox
      have hresult : writeResult (.send d c) = .err (.transportSend 4 c) := by
        simp [writeResult, WriteExchange.failure, hc]
      rw [hresult]
      exact hfails
  | transact x =>
    obtain ⟨hexpects, hx⟩ := hproper
    have hticks := exchange_ticks hgoing hlit hunit hcall (.inr hexpects) hx hrest hinbox
    have hresult : exchangeResult s.par op x = writeResult (.transact x) := by
      have hvalue : ∀ f, unitValue s.par op f = .unit := fun f => by
        cases op with
        | powerWrite | packetWrite => rfl
        | _ => cases hwrite
      cases houtcome : x.outcome <;> simp only [exchangeResult, writeResult, WriteExchange.failure, houtcome, hvalue]
    rw [hresult] at hticks
    exact hticks

section
variable {l : Label} {rx : Option (List Byte)} {rest : List Input} {time : Nat} {events : List Event} {s u : State}
  {op : UnitOp}

theorem goesOn_op (s : State) (h : s.step.isSome = true) : GoesOn (fun a => a.step.isSome) s := fun _ _ hstep =>
  (congrArg Option.isSome hstep).trans h

theorem returned_unitEnter (r : UnitResult) (rx' : Option (List Byte)) (inbox : List Input) (t : Nat)
    (more : List Event) :
    returned r rx' rest t more ((standing l rx inbox time events u).unitEnter op) =
      resulted l r rx' rest (time + t) (events ++ more) u := by
  simp [returned, resulted, standing, State.unitEnter, Nat.add_assoc]

/-- A read that its step calls; `u` has the registers that the step writes before its call. -/
theorem read_ticks {x : Exchange} (hlit : u.par.lit = Config.lit) (hread : op.isWrite = false) (hproper : x.Proper)
    (hrest : Settled rest)
    (hbegin : labelBegin l (standing l rx (x.answers ++ rest) time events s) =
      .ok ((standing l rx (x.answers ++ rest) time events u).unitEnter op)) :
    OpTicks (standing l rx (x.answers ++ rest) time events s)
      (resulted l (exchangeResult u.par op x) (x.rxAfter rx) rest (time + x.time u.par.tSettleMs)
        (events ++ x.events u.par.tSettleMs (op.frame u.par)) u) := by
  refine (begin_ticks (settled_answers x rest) hbegin).trans ?_
  rw [← returned_unitEnter (op := op) (rx := rx) (inbox := x.answers ++ rest)]
  exact exchange_ticks (s := (standing l rx (x.answers ++ rest) time events u).unitEnter op) (goesOn_op _ rfl) hlit rfl
    rfl (.inl hread) hproper hrest rfl

/-- A write that its step calls. -/
theorem writes_ticks {w : WriteExchange} (hlit : u.par.lit = Config.lit) (hwrite : op.isWrite = true)
    (hproper : w.Proper u.par.writeExpectsResponse) (hrest : Settled rest)
    (hbegin : labelBegin l (standing l rx (w.answers ++ rest) time events s) =
      .ok ((standing l rx (w.answers ++ rest) time events u).unitEnter op)) :
    OpTicks (standing l rx (w.answers ++ rest) time events s)
      (resulted l (writeResult w) (w.rxAfter rx) rest (time + w.time u.par.tSettleMs)
        (events ++ w.events u.par.tSettleMs (op.frame u.par)) u) := by
  refine (begin_ticks (settled_writeAnswers w rest) hbegin).trans ?_
  rw [← returned_unitEnter (op := op) (rx := rx) (inbox := w.answers ++ rest)]
  exact write_ticks (s := (standing l rx (w.answers ++ rest) time events u).unitEnter op) (goesOn_op _ rfl) hlit rfl
    rfl hwrite hproper hrest rfl

end

/-! ## The start of a request -/

/-- At step 0 of a request that is taken at rest. -/
theorem takeRequest_eq_standing {s : State} (hrest : s.atRest = true) (l : Label) :
    s.takeRequest l = standing l none s.inbox 0 [] s := by
  obtain ⟨-, hunit, hcall⟩ := (atRest_iff s).mp hrest
  simp [standing, State.takeRequest, State.goto, hunit, hcall]

/-- A request runs along its script to its end. -/
theorem exec_of_script {i : Instr} {l : Label} {s t : State} (hfirst : firstLabel i = some l) (hrest : s.atRest = true)
    (hticks : OpTicks (standing l none (s.takePort i).inbox 0 [] (s.takePort i)) t) (hdone : t.step = none) :
    exec i s = .next t := by
  rw [exec_of_firstLabel hfirst hrest]
  refine runOp_of_ticks (located_takeRequest hrest hfirst) ?_ (.inl hdone)
  rw [takeRequest_eq_standing (Invariant.takePort_atRest hrest)]
  exact hticks

/-- The acceptance check that lets the request go on to its step 1 (R200). -/
theorem accept_ticks {l first : Label} {op : Op} {rx : Option (List Byte)} {rest : List Input} {s : State}
    (hbegin : ∀ t, labelBegin l t = .ok (t.accept op first)) (hrest : Settled rest)
    (hfault : s.fault = false ∨ op = .detach) (hlegal : op.legal s.life = true) :
    OpTicks (standing l rx rest 0 [] s) (standing first rx rest 0 [] s) := by
  refine begin_ticks hrest ?_
  rw [hbegin]
  have hnone : (standing l rx rest 0 [] s).refusalOf op = none :=
    (Invariant.refusalOf_eq_none_iff op _).mpr ⟨hfault, hlegal⟩
  rcases accept_cases op first (standing l rx rest 0 [] s) with ⟨-, h⟩ | ⟨r, hrefused, -⟩
  · rw [h]; rfl
  · exact nomatch hnone.symm.trans hrefused

/-- A refused request ends at step 0 (R200). -/
theorem refuse_ticks {l first : Label} {op : Op} {rx : Option (List Byte)} {rest : List Input} {s : State}
    {code : ResultCode} (hop : l.name.op ≠ .dispatch) (hbegin : ∀ t, labelBegin l t = .ok (t.accept op first))
    (hrest : Settled rest) (hrefused : s.refusalOf op = some code) :
    OpTicks (standing l rx rest 0 [] s) (ended code rx rest 0 [.respond code none] s) := by
  refine begin_ticks hrest ?_
  rw [hbegin]
  have hrefused' : (standing l rx rest 0 [] s).refusalOf op = some code := hrefused
  rcases accept_cases op first (standing l rx rest 0 [] s) with ⟨hnone, -⟩ | ⟨r, hcode, h⟩
  · exact nomatch hnone.symm.trans hrefused'
  · obtain rfl : r = code := Option.some.inj (hcode.symm.trans hrefused')
    rw [h, finish_standing hop]
    rfl

end Sys2Proof.Proofs.Script
end

/-! The requests that end early, the query and the releases: what is refused at step 0, an invalid record, FINGER_QUERY,
DETACH and the abort path (44_lifecycle.md R200, R201, R207, R218, R222). -/

section
namespace Sys2Proof.Proofs.Script

open Sys2Proof Sys2Proof.Machine Sys2Proof.Safety Sys2Proof.Proofs.Ticks Sys2Proof.Proofs.Location
  Sys2Proof.Proofs.Steps Sys2Proof.Proofs.Transport

/-! ## What the port half leaves alone -/

/-- The fields that the scripts read of the state at which a request is taken. -/
theorem takePort_fields (i : Instr) (s : State) :
    (s.takePort i).par = s.par ∧ (s.takePort i).life = s.life ∧ (s.takePort i).fault = s.fault ∧
      (s.takePort i).ses = s.ses ∧ (s.takePort i).res = s.res := by
  obtain ⟨q, moves, n, hport⟩ := Arbiter.takePort_frame i s
  rw [hport]
  exact ⟨rfl, rfl, rfl, rfl, rfl⟩

/-! ## The acceptance check (R200) -/

/-- FAULTED goes before BAD_STATE (R271 d). -/
theorem refusalOf_eq_some {op : Op} {s : State} (hop : op ≠ .detach) (h : s.fault = true ∨ op.legal s.life = false) :
    s.refusalOf op = some (if s.fault then .faulted else .badState) := by
  unfold State.refusalOf
  cases hfault : s.fault with
  | true => simp [hop]
  | false =>
    rcases h with h | h
    · exact nomatch hfault.symm.trans h
    · simp [h]

/-- Settles O27: each of the four requests has a step 0 that refuses it. -/
theorem rejectedRequests : Obligations.RejectedRequests := by
  intro i s hlegal hrest hsettled hrefused
  obtain ⟨-, hlife, hfault, -⟩ := takePort_fields i s
  have refused : ∀ (op : Op) (l first : Label), firstLabel i = some l → l.name.op ≠ .dispatch → op ≠ .detach →
      (∀ t, labelBegin l t = .ok (t.accept op first)) → (s.life ∉ legalIn i → op.legal s.life = false) →
      exec i s = .next (ended (if s.fault then .faulted else .badState) none (s.takePort i).inbox 0
        [.respond (if s.fault then .faulted else .badState) none] (s.takePort i)) := by
    intro op l first hfirst hname hop hbegin hbad
    refine exec_of_script hfirst hrest (refuse_ticks hname hbegin hsettled ?_) rfl
    rw [refusalOf_eq_some hop (by rw [hfault, hlife]; exact hrefused.imp_right hbad), hfault]
  have hnot : ∀ {a b : Life}, a ∉ [b] → (a == b) = false := fun h => beq_false_of_ne fun h' => h (by rw [h']; simp)
  cases i with
  | attach cfg => exact refused .attach (.a0 cfg) (.a1 cfg) rfl nofun nofun (fun _ => rfl) hnot
  | suspend => exact refused .suspend .s0 .s1 rfl nofun nofun (fun _ => rfl) hnot
  | resume => exact refused .resume .u0 .u1 rfl nofun nofun (fun _ => rfl) hnot
  | fingerQuery => exact refused .fingerQuery .f0 .f1 rfl nofun nofun (fun _ => rfl) hnot
  | _ => exact absurd rfl hlegal

theorem checkConfig_invalid {cfg : Option CfgRecord} {s : State} (h : validate s.par cfg = none) :
    s.checkConfig cfg = (s.diag .configFail .nothing).finish .config none := by
  unfold State.checkConfig
  rw [h]

theorem checkConfig_valid {cfg : Option CfgRecord} {v : ValidCfg} {s : State} (h : validate s.par cfg = some v) :
    s.checkConfig cfg = s.goto (.a2 v) := by
  unfold State.checkConfig
  rw [h]

/-- Settles O30: A0 accepts, and A1 ends the request with its one diagnostic. -/
theorem attachInvalidRecord : Obligations.AttachInvalidRecord := by
  intro cfg s hrest hlife hfault hinvalid hsettled
  obtain ⟨hpar, hlife', hfault', -⟩ := takePort_fields (.attach cfg) s
  refine exec_of_script (l := .a0 cfg) rfl hrest ?_ rfl
  refine (accept_ticks (first := .a1 cfg) (op := .attach) (fun _ => rfl) hsettled (.inl (hfault'.trans hfault))
    (by rw [hlife', hlife]; rfl)).trans (begin_ticks hsettled ?_)
  refine congrArg Except.ok ((checkConfig_invalid ?_).trans ?_)
  · exact (congrArg (validate · cfg) hpar).trans hinvalid
  · rw [diag_standing, finish_standing (l := .a1 cfg) nofun]
    rfl

/-! ## FINGER_QUERY (R222) -/

/-- How a FINGER_QUERY answers what its read returned. -/
def fingerAnswer (r : UnitResult) : ResultCode × Option Bool :=
  match r with
  | .ok (.flag v) => (.ok, some v)
  | .ok _ => (.ok, none)
  | .err e => (e.result, none)

/-- The whole of a FINGER_QUERY, for every exchange of its read. -/
theorem fingerQuery_ticks {b : State} {x : Exchange} {rest : List Input} (hlife : b.life = .ready)
    (hfault : b.fault = false) (hsettled : Settled rest) (hlit : b.par.lit = Config.lit) (hproper : x.Proper) :
    OpTicks (standing .f0 none (x.answers ++ rest) 0 [] b)
      (ended (fingerAnswer (exchangeResult b.par .fingerRead x)).1 (x.rxAfter none) rest (x.time b.par.tSettleMs)
        (x.events b.par.tSettleMs (UnitOp.frame b.par .fingerRead) ++
          [.respond (fingerAnswer (exchangeResult b.par .fingerRead x)).1
            (fingerAnswer (exchangeResult b.par .fingerRead x)).2])
        { b with tx := none }) := by
  have haccept := accept_ticks (l := .f0) (first := .f1) (op := .fingerQuery) (rx := none) (s := b) (fun _ => rfl)
    (settled_answers x rest) (.inl hfault) (by rw [hlife]; rfl)
  have hread := read_ticks (l := .f1) (rx := none) (rest := rest) (time := 0) (events := []) (s := b) (u := b)
    (op := .fingerRead) hlit rfl hproper hsettled rfl
  rw [Nat.zero_add, List.nil_append] at hread
  refine haccept.trans (hread.trans ?_)
  generalize x.time b.par.tSettleMs = time
  generalize x.events b.par.tSettleMs (UnitOp.frame b.par .fingerRead) = events
  have hreturn := return_ticks (l := .f1) (r := exchangeResult b.par .fingerRead x) (rx := x.rxAfter none)
    (time := time) (events := events) (s := b)
    (t := standing (.f2 (exchangeResult b.par .fingerRead x)) (x.rxAfter none) rest time events { b with tx := none })
    hsettled rfl
  refine hreturn.trans ?_
  unfold exchangeResult
  cases x.outcome with
  | error e => exact finish_ticks (l := .f2 (.err e)) (u := { b with tx := none }) hsettled nofun rfl
  | ok f =>
    have hvalue := begin_ticks (l := .f2 (.ok (.flag (fingerOf f)))) (rx := x.rxAfter none) (time := time)
      (events := events) (s := { b with tx := none })
      (t := standing (.f3 (fingerOf f)) (x.rxAfter none) rest time events { b with tx := none }) hsettled rfl
    exact hvalue.trans (finish_ticks (l := .f3 (fingerOf f)) (u := { b with tx := none }) hsettled nofun rfl)

/-- The whole of a FINGER_QUERY that is taken at rest. -/
theorem exec_fingerQuery {s : State} {x : Exchange} {rest : List Input} (hrest : s.atRest = true)
    (hlife : s.life = .ready) (hfault : s.fault = false) (hsettled : Settled rest) (hlit : s.par.lit = Config.lit)
    (hproper : x.Proper) (hinbox : (s.takePort .fingerQuery).inbox = x.answers ++ rest) :
    exec .fingerQuery s = .next (ended (fingerAnswer (exchangeResult s.par .fingerRead x)).1 (x.rxAfter none) rest
      (x.time s.par.tSettleMs)
      (x.events s.par.tSettleMs (UnitOp.frame s.par .fingerRead) ++
        [.respond (fingerAnswer (exchangeResult s.par .fingerRead x)).1
          (fingerAnswer (exchangeResult s.par .fingerRead x)).2])
      { s.takePort .fingerQuery with tx := none }) := by
  obtain ⟨hpar, hlife', hfault', -⟩ := takePort_fields .fingerQuery s
  rw [← hpar]
  refine exec_of_script (l := .f0) rfl hrest ?_ rfl
  rw [hinbox]
  exact fingerQuery_ticks (hlife'.trans hlife) (hfault'.trans hfault) hsettled (by rw [hpar]; exact hlit) hproper

/-- Settles O39: the three exchanges of the read. -/
theorem fingerQueryAnswers : Obligations.FingerQueryAnswers := by
  intro s d1 d2 d3 rest hrest hlife hfault hsettled hlit frame b
  have hframe : UnitOp.frame s.par .fingerRead = frame := read_frame hlit rfl
  refine ⟨fun c hc hinbox => ?_, fun c bytes hc hinbox => ?_, fun m r1 r2 r3 hinbox => ?_⟩
  · rw [exec_fingerQuery (x := .sendFails d1 c) hrest hlife hfault hsettled hlit hc hinbox, hframe]
    rfl
  · rw [exec_fingerQuery (x := .recvFails d1 d2 d3 c bytes) hrest hlife hfault hsettled hlit hc hinbox, hframe]
    rfl
  · rw [exec_fingerQuery (x := .replies d1 d2 d3 m r1 r2 r3) hrest hlife hfault hsettled hlit trivial hinbox, hframe]
    by_cases hm : m = 0x52
    · have houtcome : (Exchange.replies d1 d2 d3 m r1 r2 r3).outcome = .ok [m, r1, r2, r3] := if_pos hm
      rw [if_pos hm, if_pos hm, exchangeResult, houtcome]
      rfl
    · have houtcome : (Exchange.replies d1 d2 d3 m r1 r2 r3).outcome = .error (.protocol m) := if_neg hm
      rw [if_neg hm, if_neg hm, exchangeResult, houtcome]
      rfl

/-! ## The releases (R207, R218) -/

/-- Answers that all return nothing, with the times that they take. -/
def doneAnswers (ds : List Nat) : List Input := ds.map fun d => .reply d .done

/-- The events of primitives that all return nothing. -/
def doneEvents (cs : List Call) : List Event := cs.map fun c => .call c .done

theorem settled_doneAnswers (ds : List Nat) {rest : List Input} (h : Settled rest) :
    Settled (doneAnswers ds ++ rest) := by
  cases ds with
  | nil => exact h
  | cons d ds => exact settled_reply _ _ _

/-- The primitives that release a resource. -/
def isRelease : Call → Bool
  | .busClose | .releaseInterrupt | .hostUnregister | .releasePin _ => true
  | _ => false

/-- One step of a release list, its resource held or not: what it leaves is the state `u` either way. -/
theorem release_ticks {l next : Label} {calls : List Call} {rx : Option (List Byte)} {rest : List Input} {ds : List Nat}
    {time : Nat} {events : List Event} {s u : State} (hrest : Settled rest) (hlen : ds.length = calls.length)
    (hskip : calls = [] → ∀ i t e, labelBegin l (standing l rx i t e s) = .ok (standing next rx i t e u))
    (hcall : calls = [] ∨ ∃ c, calls = [c] ∧ isRelease c = true ∧
      (∀ i t e, labelBegin l (standing l rx i t e s) = .ok ((standing l rx i t e s).issue c)) ∧
      ∀ i t e, labelAnswer l .done (standing l rx i t e s) = standing next rx i t e u) :
    OpTicks (standing l rx (doneAnswers ds ++ rest) time events s)
      (standing next rx rest (time + ds.sum) (events ++ doneEvents calls) u) := by
  rcases hcall with hnone | ⟨c, hone, hrelease, hbegin, hanswer⟩
  · subst hnone
    obtain rfl : ds = [] := List.length_eq_zero_iff.mp hlen
    have hticks := begin_ticks hrest (hskip rfl rest time events)
    simpa [doneAnswers, doneEvents] using hticks
  · subst hone
    obtain ⟨d, rfl⟩ := List.length_eq_one_iff.mp hlen
    have hfits : c.fits .done = true := by cases c <;> first | rfl | cases hrelease
    have hmin : c.minTime s.par = 0 := by cases c <;> first | rfl | cases hrelease
    have hrecord : c.record .done = .done := by cases c <;> rfl
    have hticks := call_ticks (hbegin (.reply d .done :: rest) time events) hfits
    rw [hanswer, hmin, hrecord, Nat.zero_add] at hticks
    simpa [doneAnswers, doneEvents] using hticks

/-- The six steps of a release list, B2 to B7 or X3 to X8. -/
structure ReleaseList (l2 l3 l4 l5 l6 l7 : Label) : Prop where
  bus (s : State) : labelBegin l2 s = .ok (s.releaseBegin s.res.bus .busClose l3)
  busDone (s : State) : labelAnswer l2 .done s = s.busReleased.goto l3
  irqCfg (s : State) : labelBegin l3 s = .ok (s.releaseBegin s.res.irqCfg .releaseInterrupt l4)
  irqCfgDone (s : State) : labelAnswer l3 .done s = s.irqCfgReleased.goto l4
  host (s : State) : labelBegin l4 s = .ok (s.releaseBegin s.res.host .hostUnregister l5)
  hostDone (s : State) : labelAnswer l4 .done s = s.hostReleased.goto l5
  pinInt (s : State) : labelBegin l5 s = .ok (s.intReleaseBegin l6)
  pinIntDone (s : State) : labelAnswer l5 .done s = s.pinIntReleased.goto l6
  pinRst (s : State) : labelBegin l6 s = .ok (s.lastReleaseBegin l7)
  pinRstDone (s : State) : labelAnswer l6 .done s = s.pinRstReleased.goto l7

theorem abortList : ReleaseList .b2 .b3 .b4 .b5 .b6 .b7 :=
  ⟨fun _ => rfl, fun _ => rfl, fun _ => rfl, fun _ => rfl, fun _ => rfl, fun _ => rfl, fun _ => rfl, fun _ => rfl,
    fun _ => rfl, fun _ => rfl⟩

theorem detachList : ReleaseList .x3 .x4 .x5 .x6 .x7 .x8 :=
  ⟨fun _ => rfl, fun _ => rfl, fun _ => rfl, fun _ => rfl, fun _ => rfl, fun _ => rfl, fun _ => rfl, fun _ => rfl,
    fun _ => rfl, fun _ => rfl⟩

/-- What the last release step leaves, its pin held or not: the session is gone with it (R51). -/
def sessionReleased (s : State) : State :=
  { s with
    ses := {}, lastReport := none
    res := { s.res with pins := s.res.pins && s.res.pinRst.isNone, pinRst := none, pinInt := none } }

/-- A resource that is not held is released already. -/
theorem busReleased_of_free {s : State} (h : s.res.bus = false) : s.busReleased = s := by
  rw [State.busReleased, ← h]

theorem irqCfgReleased_of_free {s : State} (h : s.res.irqCfg = false) : s.irqCfgReleased = s := by
  rw [State.irqCfgReleased, ← h]

theorem hostReleased_of_free {s : State} (h : s.res.host = false) : s.hostReleased = s := by
  rw [State.hostReleased, ← h]

theorem pinIntReleased_of_free {s : State} (h : s.res.pinInt = none) : s.pinIntReleased = s := by
  rw [State.pinIntReleased, ← h]

section
variable {l next : Label} {rx : Option (List Byte)} {rest : List Input} {ds : List Nat} {time : Nat}
  {events : List Event} {s : State} (hrest : Settled rest)
include hrest

/-- A step that releases a flagged resource. -/
theorem flag_release_ticks {held : Bool} {c : Call} {u : State} (hrelease : isRelease c = true)
    (hbegin : ∀ i t e, labelBegin l (standing l rx i t e s) = .ok ((standing l rx i t e s).releaseBegin held c next))
    (hdone : ∀ i t e, labelAnswer l .done (standing l rx i t e s) = standing next rx i t e u)
    (hfree : held = false → u = s) (hlen : ds.length = (if held then [c] else []).length) :
    OpTicks (standing l rx (doneAnswers ds ++ rest) time events s)
      (standing next rx rest (time + ds.sum) (events ++ doneEvents (if held then [c] else [])) u) := by
  cases held with
  | false =>
    rw [hfree rfl]
    exact release_ticks hrest hlen (fun _ i t e => hbegin i t e) (.inl rfl)
  | true => exact release_ticks hrest hlen nofun (.inr ⟨c, rfl, hrelease, hbegin, hdone⟩)

theorem pinInt_release_ticks (hbegin : ∀ t, labelBegin l t = .ok (t.intReleaseBegin next))
    (hdone : ∀ t, labelAnswer l .done t = t.pinIntReleased.goto next)
    (hlen : ds.length = (s.res.pinInt.toList.map Call.releasePin).length) :
    OpTicks (standing l rx (doneAnswers ds ++ rest) time events s)
      (standing next rx rest (time + ds.sum) (events ++ doneEvents (s.res.pinInt.toList.map Call.releasePin))
        s.pinIntReleased) := by
  have hint : ∀ i t e, labelBegin l (standing l rx i t e s) = .ok (
      match s.res.pinInt with
      | some h => (standing l rx i t e s).issue (.releasePin h)
      | none => (standing l rx i t e s).goto next) := fun i t e => hbegin _
  cases hpin : s.res.pinInt with
  | none =>
    rw [hpin] at hint hlen
    rw [pinIntReleased_of_free hpin]
    exact release_ticks hrest hlen (fun _ i t e => hint i t e) (.inl rfl)
  | some h =>
    rw [hpin] at hint hlen
    exact release_ticks hrest hlen nofun (.inr ⟨.releasePin h, rfl, rfl, hint, fun i t e => hdone _⟩)

theorem pinRst_release_ticks (hbegin : ∀ t, labelBegin l t = .ok (t.lastReleaseBegin next))
    (hdone : ∀ t, labelAnswer l .done t = t.pinRstReleased.goto next)
    (hlen : ds.length = (s.res.pinRst.toList.map Call.releasePin).length) :
    OpTicks (standing l rx (doneAnswers ds ++ rest) time events s)
      (standing next rx rest (time + ds.sum) (events ++ doneEvents (s.res.pinRst.toList.map Call.releasePin))
        (sessionReleased s)) := by
  have hrst : ∀ i t e, labelBegin l (standing l rx i t e s) = .ok (
      match s.res.pinRst with
      | some h => (standing l rx i t e s).issue (.releasePin h)
      | none => (standing l rx i t e s).releaseSession.goto next) := fun i t e => hbegin _
  cases hpin : s.res.pinRst with
  | none =>
    rw [hpin] at hrst hlen
    have hleft : ∀ i t e, (standing l rx i t e s).releaseSession.goto next =
        standing next rx i t e (sessionReleased s) := fun i t e => by
      simp [sessionReleased, hpin, standing, State.releaseSession, State.goto]
    exact release_ticks hrest hlen (fun _ i t e => (hrst i t e).trans (congrArg Except.ok (hleft i t e))) (.inl rfl)
  | some h =>
    rw [hpin] at hrst hlen
    have hleft : ∀ i t e, (standing l rx i t e s).pinRstReleased.goto next =
        standing next rx i t e (sessionReleased s) := fun i t e => by
      simp [sessionReleased, hpin, standing, State.pinRstReleased, State.releaseSession, State.goto]
    exact release_ticks hrest hlen nofun
      (.inr ⟨.releasePin h, rfl, rfl, hrst, fun i t e => (hdone _).trans (hleft i t e)⟩)

end

/-- Times that are as many as two lists of primitives are the times of the one and of the other. -/
theorem exists_append_of_length {ds : List Nat} {a b : List Call} (h : ds.length = (a ++ b).length) :
    ∃ d e, ds = d ++ e ∧ d.length = a.length ∧ e.length = b.length := by
  refine ⟨ds.take a.length, ds.drop a.length, (List.take_append_drop _ _).symm, ?_, ?_⟩
  · rw [List.length_take, h, List.length_append]; omega
  · rw [List.length_drop, h, List.length_append]; omega

section
variable {l2 l3 l4 l5 l6 l7 : Label} (hlist : ReleaseList l2 l3 l4 l5 l6 l7) {rx : Option (List Byte)}
  {rest : List Input} {ds : List Nat} {time : Nat} {events : List Event} {s : State} (hrest : Settled rest)
include hlist hrest

theorem bus_release_ticks (hlen : ds.length = (if s.res.bus then [Call.busClose] else []).length) :
    OpTicks (standing l2 rx (doneAnswers ds ++ rest) time events s)
      (standing l3 rx rest (time + ds.sum) (events ++ doneEvents (if s.res.bus then [.busClose] else []))
        s.busReleased) :=
  flag_release_ticks hrest rfl (fun _ _ _ => hlist.bus _) (fun _ _ _ => hlist.busDone _) busReleased_of_free hlen

theorem irqCfg_release_ticks (hlen : ds.length = (if s.res.irqCfg then [Call.releaseInterrupt] else []).length) :
    OpTicks (standing l3 rx (doneAnswers ds ++ rest) time events s)
      (standing l4 rx rest (time + ds.sum) (events ++ doneEvents (if s.res.irqCfg then [.releaseInterrupt] else []))
        s.irqCfgReleased) :=
  flag_release_ticks hrest rfl (fun _ _ _ => hlist.irqCfg _) (fun _ _ _ => hlist.irqCfgDone _) irqCfgReleased_of_free
    hlen

theorem host_release_ticks (hlen : ds.length = (if s.res.host then [Call.hostUnregister] else []).length) :
    OpTicks (standing l4 rx (doneAnswers ds ++ rest) time events s)
      (standing l5 rx rest (time + ds.sum) (events ++ doneEvents (if s.res.host then [.hostUnregister] else []))
        s.hostReleased) :=
  flag_release_ticks hrest rfl (fun _ _ _ => hlist.host _) (fun _ _ _ => hlist.hostDone _) hostReleased_of_free hlen

end

/-- A release step leaves the resources of the later steps as they were. -/
theorem res_after_releases (s : State) :
    s.busReleased.res.irqCfg = s.res.irqCfg ∧ s.busReleased.irqCfgReleased.res.host = s.res.host ∧
      s.busReleased.irqCfgReleased.hostReleased.res.pinInt = s.res.pinInt ∧
      s.busReleased.irqCfgReleased.hostReleased.pinIntReleased.res.pinRst = s.res.pinRst ∧
      s.busReleased.irqCfgReleased.hostReleased.pinIntReleased.res.pins = s.res.pins :=
  ⟨rfl, rfl, rfl, rfl, rfl⟩

/-- What the whole list leaves. -/
theorem sessionReleased_of_list (s : State) :
    sessionReleased s.busReleased.irqCfgReleased.hostReleased.pinIntReleased =
      { s with ses := {}, lastReport := none, res := { pins := s.res.pins && s.res.pinRst.isNone } } := by
  simp only [sessionReleased, State.busReleased, State.irqCfgReleased, State.hostReleased, State.pinIntReleased]

/-- A whole release list: exactly what is held is released, in its order. -/
theorem releases_ticks {l2 l3 l4 l5 l6 l7 : Label} (hlist : ReleaseList l2 l3 l4 l5 l6 l7) {rx : Option (List Byte)}
    {rest : List Input} {ds : List Nat} {time : Nat} {events : List Event} {s : State} (hrest : Settled rest)
    (hlen : ds.length = (releases s.res).length) :
    OpTicks (standing l2 rx (doneAnswers ds ++ rest) time events s)
      (standing l7 rx rest (time + ds.sum) (events ++ doneEvents (releases s.res))
        { s with ses := {}, lastReport := none, res := { pins := s.res.pins && s.res.pinRst.isNone } }) := by
  obtain ⟨ds, d5, rfl, hlen, hlen5⟩ := exists_append_of_length hlen
  obtain ⟨ds, d4, rfl, hlen, hlen4⟩ := exists_append_of_length hlen
  obtain ⟨ds, d3, rfl, hlen, hlen3⟩ := exists_append_of_length hlen
  obtain ⟨d1, d2, rfl, hlen1, hlen2⟩ := exists_append_of_length hlen
  obtain ⟨hirqCfg, hhost, hpinInt, hpinRst, -⟩ := res_after_releases s
  have h5 := settled_doneAnswers d5 hrest
  have h4 := settled_doneAnswers d4 h5
  have h3 := settled_doneAnswers d3 h4
  have h2 := settled_doneAnswers d2 h3
  have hticks := (bus_release_ticks (rx := rx) (time := time) (events := events) hlist h2 hlen1).trans
    ((irqCfg_release_ticks hlist h3 (by rw [hirqCfg]; exact hlen2)).trans
      ((host_release_ticks hlist h4 (by rw [hhost]; exact hlen3)).trans
        ((pinInt_release_ticks h5 hlist.pinInt hlist.pinIntDone (by rw [hpinInt]; exact hlen4)).trans
          (pinRst_release_ticks hrest hlist.pinRst hlist.pinRstDone (by rw [hpinRst]; exact hlen5)))))
  rw [hirqCfg, hhost, hpinInt, hpinRst, sessionReleased_of_list] at hticks
  simpa [OpTicks, Ticks, releases, doneAnswers, doneEvents, Nat.add_assoc] using hticks

/-- Settles O33: B1 masks and logs, the list releases, and B7 ends in Detached. -/
theorem abortReleasesAll : Obligations.AbortReleasesAll := by
  intro s at_ cause ds rest hstep hunit hcall hur hrest hlen hinbox
  have hlocated : Located s := located_at hstep hunit hur nofun nofun
  refine runOp_of_ticks hlocated ?_ (.inl rfl)
  have hstart : s = standing (.b1 at_ cause) s.rx (doneAnswers ds ++ rest) 0 [] s := by
    simp only [standing, ← hstep, ← hunit, ← hcall, ← hur, doneAnswers, ← hinbox, Nat.add_zero, List.append_nil]
  have hmask := diag_ticks (l := .b1 at_ cause) (next := .b2) (rx := s.rx) (time := 0) (events := []) (s := s)
    (u := s.maskIrq) (settled_doneAnswers ds hrest) rfl
  rw [← hstart] at hmask
  have hrelease := releases_ticks (rx := s.rx) (time := 0)
    (events := [.diag ⟨.initFail, .attach, some .b1, .abort at_ cause⟩]) (s := s.maskIrq) abortList hrest hlen
  rw [Nat.zero_add] at hrelease
  exact hmask.trans (hrelease.trans (finish_ticks (u := { released s with life := .detached }) hrest nofun rfl))

/-- Settles O38: X0 accepts in every state, X1 tells Detached apart, X2 masks, the list releases, and X8 ends. -/
theorem detachReleases : Obligations.DetachReleases := by
  intro s ds rest hrest hsettled
  obtain ⟨-, hlife', -, -, hres⟩ := takePort_fields .detach s
  refine ⟨fun hlife hinbox => ?_, fun hlife hlen hinbox => ?_⟩
  · refine exec_of_script (l := .x0) rfl hrest ?_ rfl
    rw [hinbox]
    refine (accept_ticks (first := .x1) (op := .detach) (fun _ => rfl) hsettled (.inr rfl) rfl).trans ?_
    refine finish_ticks (events := []) hsettled nofun ?_
    exact congrArg Except.ok (if_pos (hlife'.trans hlife))
  · refine exec_of_script (l := .x0) rfl hrest ?_ rfl
    rw [hinbox]
    have hanswers := settled_doneAnswers ds hsettled
    have haccept := accept_ticks (l := .x0) (first := .x1) (op := .detach) (rx := none) (s := s.takePort .detach)
      (fun _ => rfl) hanswers (.inr rfl) rfl
    have hattached : OpTicks (standing .x1 none (doneAnswers ds ++ rest) 0 [] (s.takePort .detach))
        (standing .x2 none (doneAnswers ds ++ rest) 0 [] (s.takePort .detach)) :=
      begin_ticks hanswers (congrArg Except.ok (if_neg fun h => hlife (hlife'.symm.trans h)))
    have hmask : OpTicks (standing .x2 none (doneAnswers ds ++ rest) 0 [] (s.takePort .detach))
        (standing .x3 none (doneAnswers ds ++ rest) 0 [] (s.takePort .detach).maskIrq) := begin_ticks hanswers rfl
    have hrelease := releases_ticks (rx := none) (time := 0) (events := []) (s := (s.takePort .detach).maskIrq)
      detachList hsettled (by rw [hlen, ← hres]; rfl)
    have hheld : releases (s.takePort .detach).maskIrq.res = releases s.res := congrArg releases hres
    rw [Nat.zero_add, List.nil_append, hheld] at hrelease
    refine haccept.trans (hattached.trans (hmask.trans (hrelease.trans ?_)))
    exact finish_ticks (u := { released (s.takePort .detach) with life := .detached }) hsettled nofun rfl

end Sys2Proof.Proofs.Script
end

/-! A step's own call answered: the hello of A9, the failing answers of ATTACH and the interrupt's DISPATCH
(44_lifecycle.md R201 to R204, 45_dispatcher.md R240, R242, R246). -/

section
namespace Sys2Proof.Proofs.Script

open Sys2Proof Sys2Proof.Machine Sys2Proof.Safety Sys2Proof.Proofs.Ticks Sys2Proof.Proofs.Location
  Sys2Proof.Proofs.Steps Sys2Proof.Proofs.Transport Sys2Proof.Proofs.Dispatcher

/-! ## The hello (R203) -/

/-- Settles O15: both rows run A9's receive, and its check is the decoder's. -/
theorem helloReceived : Obligations.HelloReceived := by
  intro s d b0 b1 b2 b3 more rest hlit hans i
  have hgood : List.replicate s.par.lit.helloLen s.par.lit.helloByte = [0x55, 0x55, 0x55, 0x55] := by rw [hlit]; rfl
  have hlen : s.par.lit.helloLen = 4 := by rw [hlit]; rfl
  have hdecode : decodeHello s.par [b0, b1, b2, b3] = .ok i := by
    rw [decodeHello, hgood]
    exact (apply_ite Except.ok _ _ _).symm
  have hname : s.stepName = some .a9 := congrArg (Option.map Label.name) hans.step
  have hawaits : (s.awaitsHello && [b0, b1, b2, b3].length == s.par.lit.helloLen) = true := by
    rw [(awaitsHello_iff s).mpr ⟨by rw [hans.call, hlen], hans.unit, hname⟩, hlen]
    rfl
  have hcur : s.curOp = .attach := by simp [State.curOp, hans.step, Label.name, StepName.op]
  rw [exec_of_decodeHello hdecode, execHelloFrame, if_pos hawaits,
    receiveFrame_head (f := [b0, b1, b2, b3]) (more := more) hans.inbox,
    takeAnswer_label (s := { s with inbox := rest }) hans.unit hans.step]
  congr 1
  by_cases hb : [b0, b1, b2, b3] = [0x55, 0x55, 0x55, 0x55]
  · have hg : helloGood s.par [b0, b1, b2, b3] = true := by rw [helloGood, hgood, hb]; rfl
    rw [if_pos hb]
    simp [labelAnswer, Reply.onReceived, State.helloAnswered, State.helloReceived, State.answered, State.goto,
      Call.record, Call.minTime, hlen, hg]
  · have hg : helloGood s.par [b0, b1, b2, b3] = false := by rw [helloGood, hgood]; exact beq_false_of_ne hb
    rw [if_neg hb]
    simp [labelAnswer, Reply.onReceived, State.helloAnswered, State.helloReceived, State.answered, State.goto,
      State.diag, State.emit, State.curOp, State.stepName, hans.step, Label.name, StepName.op, Call.record,
      Call.minTime, hlen, hg]

/-! ## The failing answers of ATTACH (R202 to R204) -/

section
variable {s : State} {l : Label} {c : Call} {d : Nat} {r : Reply} {rest : List Input}

/-- An answer that is no whole frame stands at no port: the step takes it as it is. -/
theorem step_of_answer (hwrite : s.hostCanWrite = false) (hans : Answering s l c d r rest) (hfits : c.fits r = true)
    (hframe : ∀ n b, c = .busRecv n → r ≠ .received n b) :
    step s = .next (labelAnswer l r ((taken rest s).answered c d r)) := by
  have hfetchFrame : ∀ kind n, s.call = some (.busRecv n) → s.fetchFrame kind n = none := fun kind n hcall => by
    refine Option.eq_none_iff_forall_ne_some.mpr fun w h => ?_
    obtain ⟨_, b, _, _, hinbox, -⟩ := fetchFrame_some h
    obtain rfl : c = .busRecv n := Option.some.inj (hans.call.symm.trans hcall)
    obtain ⟨hhead, -⟩ := List.cons.inj (hans.inbox.symm.trans hinbox)
    cases hhead
    exact hframe n b rfl rfl
  have hresp : s.awaitsResponse = false := by simp [State.awaitsResponse, hans.unit]
  have hfetch : s.fetchSequencer = none := by
    by_cases hhello : s.awaitsHello = true
    · obtain ⟨hcall, -⟩ := (awaitsHello_iff s).mp hhello
      simp [State.fetchSequencer, hresp, hhello, hfetchFrame _ _ hcall]
    · by_cases hirq : s.awaitsIrqFrame = true
      · obtain ⟨hcall, -⟩ := (awaitsIrqFrame_iff s).mp hirq
        simp [State.fetchSequencer, hresp, hhello, hirq, hfetchFrame _ _ hcall]
      · rw [fetchSequencer_of_no_receive hresp (by simpa using hhello) (by simpa using hirq), hans.call]
  have htick : tick s = .moved (labelAnswer l r ((taken rest s).answered c d r)) := by
    rw [tick_answer hans.call hans.inbox hfits]
    exact congrArg Tick.moved (takeAnswer_label (s := taken rest s) hans.unit hans.step c d r)
  rw [step_tick hwrite (asyncNext_of_reply hans.inbox) (atRest_false_of_call hans.call) hfetch, tickStep, htick]

/-- An answer that enters the abort path (R207). -/
theorem step_aborts {at_ : StepName} {cause : Cause} (hwrite : s.hostCanWrite = false)
    (hans : Answering s l c d r rest) (hfits : c.fits r = true) (hframe : ∀ n b, c = .busRecv n → r ≠ .received n b)
    (hmin : c.minTime s.par = 0) (hrecord : c.record r = r)
    (hanswer : ∀ u, labelAnswer l r u = State.abort at_ cause u) :
    step s = .next { s with
      step := some (.b1 at_ cause), call := none, ur := none, inbox := rest, clock := s.clock + d
      trace := s.trace ++ [.call c r] } := by
  rw [step_of_answer hwrite hans hfits hframe, hanswer]
  simp [State.abort, State.goto, State.answered, taken, hmin, hrecord]

/-- A receive of A9 whose count is wrong (R203). -/
theorem step_of_hello_failed {x : Int} {b : List Byte} (hwrite : s.hostCanWrite = false)
    (hlit : s.par.lit = Config.lit) (hx : x ≠ 4) (hans : Answering s .a9 (.busRecv 4) d (.received x b) rest) :
    step s = .next (State.helloFailed x { s with
      call := none, inbox := rest, clock := s.clock + d,
      trace := s.trace ++ [.call (.busRecv 4) (.received x b)] }) := by
  have hlen : s.par.lit.helloLen = 4 := by rw [hlit]; rfl
  rw [step_of_answer hwrite hans ((fits_received 4 x b).mpr (.inl hx)) fun n b' hc hr => by
    cases hc; cases hr; exact hx rfl]
  simp [labelAnswer, Reply.onReceived, State.helloAnswered, State.answered, taken, Call.record, Call.minTime, hlen, hx]

end

/-- Settles O32: the failing answers at their steps, and the failed reads as they return. -/
theorem attachFailureAborts : Obligations.AttachFailureAborts := by
  intro s d rest hwrite
  refine ⟨fun l c r at_ cause hans hcase => ?_, fun x b hx hfatal hlit hans => ?_,
    fun l e hl hstep hunit hcall hur hsettled => ?_⟩
  · rcases hcase with h | h | h | ⟨x, b, hx, hfatal, hlit, h⟩ | ⟨x, y, h⟩ <;> cases h
    · exact step_aborts hwrite hans rfl nofun rfl rfl fun _ => rfl
    · exact step_aborts hwrite hans rfl nofun rfl rfl fun _ => rfl
    · exact step_aborts hwrite hans rfl nofun rfl rfl fun _ => rfl
    · have hlen : s.par.lit.helloLen = 4 := by rw [hlit]; rfl
      rw [step_of_hello_failed hwrite hlit hx hans]
      simp [State.helloFailed, hfatal, hlen, State.abort, State.goto]
    · exact step_aborts hwrite hans rfl nofun rfl rfl fun _ => rfl
  · have hlen : s.par.lit.helloLen = 4 := by rw [hlit]; rfl
    rw [step_of_hello_failed hwrite hlit hx hans]
    simp [State.helloFailed, hfatal, hlen, State.goto, State.diag, State.emit, State.curOp, State.stepName, hans.step,
      Label.name, StepName.op]
  · have hasync : s.asyncNext = false := asyncNext_of_settled hsettled
    have hbusy : s.atRest = false := by simp [State.atRest, hstep]
    have hfetch : s.fetchSequencer = none := by
      rw [fetchSequencer_of_no_call hcall, hunit, hstep]
      rfl
    have hreturn : labelReturn l (.err e) s = .ok { s with step := some (.b1 l.name (.transport e)), ur := none } := by
      rcases hl with rfl | rfl | rfl <;> rfl
    have htick : tick s = .moved { s with step := some (.b1 l.name (.transport e)), ur := none } := by
      refine tick_advance hasync hcall ?_
      rw [popTurn_of_settled hsettled]
      simp only [State.advance, hunit, hstep, hur, hreturn]
    rw [step_tick hwrite hasync hbusy hfetch, tickStep, htick]

/-! ## The start of a DISPATCH (R240) -/

section
variable {s t : State} {rest : List Input} {d : Nat} {acked : Bool}

/-- An assertion at rest runs its DISPATCH: I1 clears the latch and RX, and I2 is acknowledged. -/
theorem exec_irqLine_of_script (hrest : s.atRest = true) (hreq : s.hostReq = none) (hen : s.irqEn = true)
    (hfault : s.fault = false) (hinbox : s.inbox = .irq :: .reply d (.acked acked) :: rest)
    (hticks : OpTicks
      (standing (.i3 acked) none rest d [.call .readAndAck (.acked acked)] { s with irqPend := false }) t)
    (hdone : t.step = none) : exec .irqLine s = .next t := by
  have hsettled : Settled (.reply d (.acked acked) :: rest) := settled_reply _ _ _
  have hlatch := latchIrq_of_enabled (s := taken (.reply d (.acked acked) :: rest) s) hen hfault
  have hstarts : ((taken (.reply d (.acked acked) :: rest) s).latchIrq.dispatchPending && s.atRest &&
      !(taken (.reply d (.acked acked) :: rest) s).asyncNext && s.hostReq.isNone) = true := by
    have hpending : (taken (.reply d (.acked acked) :: rest) s).latchIrq.dispatchPending = true := by
      rw [hlatch]
      exact (dispatchPending_iff _).mpr ⟨rfl, hfault⟩
    rw [hpending, hrest, hreq]
    rfl
  rw [exec_irqLine hinbox, if_pos hstarts, startDispatch, hlatch]
  obtain ⟨-, hunit, hcall⟩ := (atRest_iff s).mp hrest
  refine runOp_of_ticks (located_enterDispatch hrest) ?_ (.inl hdone)
  rw [popTurn_of_settled (s := { taken (.reply d (.acked acked) :: rest) s with irqPend := true }) hsettled]
  have henter : ({ taken (.reply d (.acked acked) :: rest) s with irqPend := true } : State).enterDispatch =
      standing .i1 s.rx (.reply d (.acked acked) :: rest) 0 [] { s with irqPend := true } := by
    simp [standing, State.enterDispatch, State.goto, taken, hunit, hcall]
  rw [henter]
  have hclear : OpTicks (standing .i1 s.rx (.reply d (.acked acked) :: rest) 0 [] { s with irqPend := true })
      (standing .i2 none (.reply d (.acked acked) :: rest) 0 [] { s with irqPend := false }) := begin_ticks hsettled rfl
  have hack := call_ticks (l := .i2) (rx := none) (rest := rest) (time := 0) (events := [])
    (s := { s with irqPend := false }) (u := { s with irqPend := false }) (c := .readAndAck) (d := d)
    (r := .acked acked) rfl rfl
  rw [show 0 + (Call.minTime s.par .readAndAck + d) = d by simp [Call.minTime]] at hack
  exact hclear.trans (hack.trans hticks)

end

section
variable {s : State} {rest : List Input} {d time : Nat} {acked : Bool} {events : List Event}

/-- I3 goes on when the acknowledge is true or does not gate the receive (R240). -/
theorem acked_ticks (hgate : acked = true ∨ s.par.ackGatesReceive = false) (hrest : Settled rest) :
    OpTicks (standing (.i3 acked) none rest time events s) (standing .i4 none rest time events s) := by
  refine begin_ticks hrest (congrArg Except.ok (if_neg ?_))
  rcases hgate with h | h
  · simp [h]
  · simp [standing, h]

/-- I4 answered with a wrong count ends the DISPATCH with one diagnostic (R246). -/
theorem frame_fails_ticks {c : Int} {b : List Byte} (hlit : s.par.lit = Config.lit) (hc : c ≠ 25) :
    OpTicks (standing .i4 none (.reply d (.received c b) :: rest) time events s)
      (ended .ok none rest (time + d) (events ++ [.call (.busRecv 25) (.received c b),
        .diag ⟨.irqRecvFail, .dispatch, some .i4, .transport (.transportRecv 25 c)⟩]) s) := by
  have hlen : s.par.lit.rptLen = 25 := by rw [hlit]; rfl
  have hcall := call_ticks (l := .i4) (rx := none) (rest := rest) (time := time) (events := events) (s := s) (u := s)
    (c := .busRecv 25) (d := d) (r := .received c b) (by rw [← hlen]; rfl) ((fits_received 25 c b).mpr (.inl hc))
  have hanswer : ∀ e, labelAnswer .i4 (.received c b) (standing .i4 none rest (time + d) e s) =
      ended .ok none rest (time + d)
        (e ++ [.diag ⟨.irqRecvFail, .dispatch, some .i4, .transport (.transportRecv 25 c)⟩]) s := fun e => by
    rw [← finish_standing_dispatch (l := .i4) rfl .ok none, ← hlen]
    have hbad : c ≠ ((standing .i4 none rest (time + d) e s).par.lit.rptLen : Int) := by
      show c ≠ (s.par.lit.rptLen : Int)
      rw [hlen]
      exact hc
    refine (if_pos hbad).trans ?_
    rw [diag_standing]
    rfl
  have hrecord : Call.record (.busRecv 25) (.received c b) = .received c b := by simp [Call.record, hc]
  rw [show Call.minTime s.par (.busRecv 25) + d = d by simp [Call.minTime], hanswer, hrecord,
    List.append_assoc] at hcall
  exact hcall

/-- I4 answered with a whole frame goes on at I5 with the frame in RX (R111, R240). -/
theorem frame_received_ticks {f more : List Byte} (hlit : s.par.lit = Config.lit) (hlen : f.length = 25) :
    OpTicks (standing .i4 none (.reply d (.received 25 (f ++ more)) :: rest) time events s)
      (standing .i5 (some f) rest (time + d) (events ++ [.call (.busRecv 25) (.received 25 f)]) s) := by
  have hrpt : s.par.lit.rptLen = 25 := by rw [hlit]; rfl
  have htake : (f ++ more).take 25 = f := by rw [← hlen]; exact List.take_left
  have hcall := call_ticks (l := .i4) (rx := none) (rest := rest) (time := time) (events := events) (s := s) (u := s)
    (c := .busRecv 25) (d := d) (r := .received 25 (f ++ more)) (by rw [← hrpt]; rfl)
    ((fits_received 25 25 _).mpr (.inr (by simp [hlen])))
  have hanswer : ∀ e, labelAnswer .i4 (.received 25 (f ++ more)) (standing .i4 none rest (time + d) e s) =
      standing .i5 (some f) rest (time + d) e s := fun e => by
    simp [labelAnswer, Reply.onReceived, State.frameReceived, State.goto, standing, hrpt, htake]
  rw [show Call.minTime s.par (.busRecv 25) + d = d by simp [Call.minTime], hanswer,
    show Call.record (.busRecv 25) (.received 25 (f ++ more)) = .received 25 f from
      (record_received 25 _).trans (congrArg (Reply.received 25) htake)] at hcall
  exact hcall

/-- I5 ends the DISPATCH of a frame of no opcode of its own (R241). -/
theorem ignored_ticks {op : Byte} {tail : List Byte} (hlit : s.par.lit = Config.lit)
    (hwf : (Instr.irqOther op tail).WellFormed = true) (hrest : Settled rest) :
    OpTicks (standing .i5 (some (op :: tail)) rest time events s)
      (ended .ok (some (op :: tail)) rest time events s) := by
  obtain ⟨hreport, hnoise, hcalib, hhello⟩ := irqOther_opcode hwf
  refine begin_ticks hrest ?_
  have hroute := routeOpcode_of_rx (s := standing .i5 (some (op :: tail)) rest time events s) hlit rfl
  rw [if_neg hreport, if_neg hnoise, if_neg hcalib, if_neg hhello, finish_standing_dispatch (l := .i5) rfl] at hroute
  exact hroute

end

/-- Settles O23: what I3 does with the acknowledge, and then I4 with the frame. -/
theorem assertionDispatched : Obligations.AssertionDispatched := by
  intro s d1 d2 acked rest hlit hrest hreq hen hfault
  refine ⟨fun hacked hgates hsettled hinbox => ?_, fun hgate c b hc hinbox => ?_,
    fun hgate op tail more hwf hsettled hinbox => ?_⟩
  · refine exec_irqLine_of_script hrest hreq hen hfault hinbox (begin_ticks hsettled ?_) rfl
    have hends : (!false && (standing (.i3 false) none rest d1 [.call .readAndAck (.acked false)]
        { s with irqPend := false }).par.ackGatesReceive) = true := hgates
    refine congrArg Except.ok ((if_pos hends).trans ?_)
    rw [diag_standing, finish_standing_dispatch (l := .i3 false) rfl]
    rfl
  · refine exec_irqLine_of_script hrest hreq hen hfault hinbox ?_ rfl
    exact (acked_ticks (s := { s with irqPend := false }) hgate (settled_reply _ _ _)).trans
      (frame_fails_ticks hlit hc)
  · refine exec_irqLine_of_script hrest hreq hen hfault hinbox ?_ rfl
    have hlen : (op :: tail).length = 25 := length_of_encode_irq (Laws.FrameLength.irqOther op tail) hwf hlit rfl
    exact (acked_ticks (s := { s with irqPend := false }) hgate (settled_reply _ _ _)).trans
      ((frame_received_ticks (s := { s with irqPend := false }) hlit hlen).trans
        (ignored_ticks hlit hwf hsettled))

/-! ## The report (R242) -/

/-- A report without a finger has no present point (R163). -/
theorem presentPoints_of_no_finger {p : Params} {f : List Byte} (h : (decodeReport p f).fc = 0) :
    presentPoints (decodeReport p f) = [] := by
  have hnone : fingerCountOf p f = 0 := h
  simp [presentPoints, decodeReport, hnone]

section
variable {s : State} {nx ny : Nat}

/-- The events of the present points, in slot order. -/
theorem pointEvents_ok {smx smy : BitVec 16} {fx fy fxy : Bool} (hscreen : ScreenSetup s smx smy fx fy fxy)
    (hmax : SensorMax s nx ny) (ps : List TouchPoint)
    (hnonzero : ps.filterMap TouchPoint.pos ≠ [] → nx ≠ 0 ∧ ny ≠ 0) :
    s.pointEvents ps = .ok (.ok (((ps.filterMap TouchPoint.pos).map
      (screenPoint smx.toNat smy.toNat nx ny fx fy fxy)).flatMap fun q => [.position q.1 q.2, .touch true])) := by
  induction ps with
  | nil => rfl
  | cons p ps ih =>
    cases hpos : p.pos with
    | none =>
      rw [List.filterMap_cons_none hpos] at hnonzero ⊢
      rw [State.pointEvents, hpos]
      exact ih hnonzero
    | some q =>
      rw [List.filterMap_cons_some hpos] at hnonzero ⊢
      obtain ⟨hx, hy⟩ := hnonzero nofun
      rw [State.pointEvents, hpos]
      simp only [Normalizer.normalize_of_sensorMax_ne_zero hmax hx hy hscreen,
        Normalizer.normalizePoint_eq_screenPoint, ih fun _ => ⟨hx, hy⟩]
      rfl

/-- One present point is enough for the zero check to answer (R186). -/
theorem pointEvents_divZero (hmax : SensorMax s nx ny) (hzero : nx = 0 ∨ ny = 0) (ps : List TouchPoint)
    (hpresent : ps.filterMap TouchPoint.pos ≠ []) : s.pointEvents ps = .ok .divZero := by
  induction ps with
  | nil => exact absurd rfl hpresent
  | cons p ps ih =>
    cases hpos : p.pos with
    | none =>
      rw [List.filterMap_cons_none hpos] at hpresent
      rw [State.pointEvents, hpos]
      exact ih hpresent
    | some q =>
      rw [State.pointEvents, hpos]
      simp only [Normalizer.normalize_of_sensorMax_zero hmax hzero]
      rfl

/-- The events of a report are those of the statements. -/
theorem reportEvents_ok {smx smy : BitVec 16} {fx fy fxy : Bool} {r : Report}
    (hscreen : ScreenSetup s smx smy fx fy fxy) (hmax : SensorMax s nx ny)
    (hnonzero : presentPoints r ≠ [] → nx ≠ 0 ∧ ny ≠ 0) :
    s.reportEvents r = .ok (.ok (hostEvents s.par.syncAfterRelease r.fc
      ((presentPoints r).map (screenPoint smx.toNat smy.toNat nx ny fx fy fxy)))) := by
  unfold State.reportEvents hostEvents
  split_ifs
  · rfl
  · rfl
  · rw [pointEvents_ok hscreen hmax r.pts hnonzero]
    rfl

theorem reportEvents_divZero {r : Report} (hmax : SensorMax s nx ny) (hzero : nx = 0 ∨ ny = 0)
    (hpresent : presentPoints r ≠ []) (hfinger : r.fc ≠ 0) : s.reportEvents r = .ok .divZero := by
  unfold State.reportEvents
  rw [if_neg hfinger, pointEvents_divZero hmax hzero r.pts hpresent]
  rfl

end

section
variable {s : State} {f : List Byte} {rest : List Input} {time : Nat} {events : List Event}

/-- I5 routes a report to I6 (R240). -/
theorem report_routed_ticks {tail : List Byte} (hlit : s.par.lit = Config.lit) (hrest : Settled rest) :
    OpTicks (standing .i5 (some (0x5D :: tail)) rest time events s)
      (standing .i6 (some (0x5D :: tail)) rest time events s) := by
  refine begin_ticks hrest ?_
  have hroute := routeOpcode_of_rx (s := standing .i5 (some (0x5D :: tail)) rest time events s) hlit rfl
  rw [if_pos rfl] at hroute
  exact hroute

/-- I6 records the report and then acts on its events, computed from the registers as they are (R242). -/
theorem report_begins_ticks {t : State} {e : Normal (List HostEvent)} (hrest : Settled rest)
    (hevents : State.reportEvents (decodeReport s.par f)
      (standing .i6 (some f) rest time events { s with lastReport := some (decodeReport s.par f) }) = .ok e)
    (ht : t = match e with
      | .divZero => (standing .i6 (some f) rest time events
          { s with lastReport := some (decodeReport s.par f) }).faultReport
      | .ok evs => standing (.i6e 1 evs) (some f) rest time events
          { s with lastReport := some (decodeReport s.par f) }) :
    OpTicks (standing .i6 (some f) rest time events s) t := by
  refine begin_ticks hrest ?_
  have hbegin : labelBegin .i6 (standing .i6 (some f) rest time events s) =
      (State.reportEvents (decodeReport s.par f) (standing .i6 (some f) rest time events
        { s with lastReport := some (decodeReport s.par f) })).map _ := rfl
  rw [hbegin, hevents, ht]
  cases e <;> rfl

/-- I6 emits the events one by one, each answered before the next (R242). -/
theorem emits_ticks {rx : Option (List Byte)} (evs : List HostEvent) (hne : evs ≠ []) :
    ∀ (j : Nat) (ds : List Nat) (time : Nat) (events : List Event), ds.length = evs.length →
      OpTicks (standing (.i6e j evs) rx (doneAnswers ds ++ rest) time events s)
        (ended .ok rx rest (time + ds.sum) (events ++ evs.map fun e => .call (.hostEvent e) .done) s) := by
  induction evs with
  | nil => exact absurd rfl hne
  | cons e evs ih =>
    intro j ds time events hlen
    obtain ⟨d, ds, rfl⟩ := List.exists_cons_of_length_eq_add_one hlen
    have hcall := call_ticks (l := .i6e j (e :: evs)) (rx := rx) (rest := doneAnswers ds ++ rest) (time := time)
      (events := events) (s := s) (u := s) (c := .hostEvent e) (d := d) (r := .done) rfl rfl
    rw [show Call.minTime s.par (.hostEvent e) + d = d by simp [Call.minTime]] at hcall
    refine hcall.trans ?_
    rw [show Call.record (.hostEvent e) .done = .done from rfl]
    cases evs with
    | nil =>
      obtain rfl : ds = [] := List.length_eq_zero_iff.mp (by simpa using hlen)
      have hend : labelAnswer (.i6e j [e]) .done (standing (.i6e j [e]) rx rest (time + d)
          (events ++ [.call (.hostEvent e) .done]) s) =
          ended .ok rx rest (time + d) (events ++ [.call (.hostEvent e) .done]) s :=
        finish_standing_dispatch (l := .i6e j [e]) rfl .ok none
      exact hend ▸ .refl
    | cons e' evs =>
      have hnext := ih nofun (j + 1) ds (time + d) (events ++ [.call (.hostEvent e) .done]) (by simpa using hlen)
      rw [← List.append_cons] at hnext
      rw [List.sum_cons, ← Nat.add_assoc]
      exact hnext

end

/-- Every report has at least one event (R166). -/
theorem hostEvents_ne_nil (sync : Bool) (fc : BitVec 3) (pts : List (Int × Int)) : hostEvents sync fc pts ≠ [] := by
  unfold hostEvents
  split_ifs <;> simp

section
variable {s : State} {d : Nat} {b1 : Byte} {tail more : List Byte} {rest : List Input}

/-- A report that I4 receives runs on from I6. -/
theorem exec_irqReport {t : State} {inbox : List Input} (hwf : (Instr.irqReport b1 tail).WellFormed = true)
    (hlit : s.par.lit = Config.lit) (hinbox : Settled inbox)
    (hans : Answering s .i4 (.busRecv 25) d (.received 25 (0x5D :: b1 :: tail ++ more)) inbox)
    (hticks : OpTicks (standing .i6 (some (0x5D :: b1 :: tail)) inbox d
      [.call (.busRecv 25) (.received 25 (0x5D :: b1 :: tail))] s) t) (hdone : t.step = none) :
    exec (.irqReport b1 tail) s = .next t := by
  have henc : encode s.par (.irqReport b1 tail) = .irq (0x5D :: b1 :: tail) := by rw [encode, hlit]; rfl
  rw [exec_irq_eq_runOp (Laws.FrameLength.irqReport b1 tail) henc hwf hlit hans]
  refine runOp_of_ticks (located_at (l := .i5) rfl rfl rfl nofun nofun) ?_ (.inl hdone)
  exact (report_routed_ticks hlit hinbox).trans hticks

end

/-- Settles O20: I6 computes the events and emits them; a report has at least one. -/
theorem reportDispatched : Obligations.ReportDispatched := by
  intro s d b1 tail more ds rest smx smy nx ny fx fy fxy hwf hsettled hlit hscreen hmax frame report events hnonzero
    hlen hans
  have hanswers : Settled (doneAnswers ds ++ rest) := settled_doneAnswers ds hsettled
  refine exec_irqReport hwf hlit hanswers hans ?_ rfl
  have hevents := reportEvents_ok (s := standing .i6 (some frame) (doneAnswers ds ++ rest) d
    [.call (.busRecv 25) (.received 25 frame)] { s with lastReport := some report }) hscreen hmax hnonzero
  have hemits := emits_ticks (s := { s with lastReport := some report }) (rest := rest) (rx := some frame) events
    (hostEvents_ne_nil _ _ _) 1 ds d [.call (.busRecv 25) (.received 25 frame)] hlen
  exact (report_begins_ticks hanswers hevents rfl).trans hemits

/-- Settles O21: I6 records the report, and its events meet the zero check before any is emitted. -/
theorem reportFaults : Obligations.ReportFaults := by
  intro s d b1 tail more rest nx ny hwf hsettled hlit hmax hzero frame hpresent hans
  refine exec_irqReport hwf hlit hsettled hans ?_ rfl
  have hfinger : (decodeReport s.par frame).fc ≠ 0 := fun h => hpresent (presentPoints_of_no_finger h)
  have hevents := reportEvents_divZero (s := standing .i6 (some frame) rest d
    [.call (.busRecv 25) (.received 25 frame)] { s with lastReport := some (decodeReport s.par frame) })
    hmax hzero hpresent hfinger
  refine report_begins_ticks hsettled hevents ?_
  have hfault : ∀ (events : List Event) (u : State), (standing .i6 (some frame) rest d events u).faultReport =
      ended .faulted (some frame) rest d (events ++ [.diag ⟨.fault, .dispatch, some .i6, .cause .normalizerDivZero⟩])
        (u.raiseFault .normalizerDivZero) := fun events u => by
    show State.finish _ _
      (State.diag _ _ (standing .i6 (some frame) rest d events (u.raiseFault .normalizerDivZero))) = _
    rw [diag_standing, finish_standing_dispatch (l := .i6) rfl]
    rfl
  exact (hfault [.call (.busRecv 25) (.received 25 frame)]
    { s with lastReport := some (decodeReport s.par frame) }).symm

end Sys2Proof.Proofs.Script
end

/-! SUSPEND and RESUME, run over every answer to their writes and read-backs (44_lifecycle.md R210, R214, R215). -/

section
namespace Sys2Proof.Proofs.Script

open Sys2Proof Sys2Proof.Machine Sys2Proof.Safety Sys2Proof.Proofs.Ticks Sys2Proof.Proofs.Location
  Sys2Proof.Proofs.Steps Sys2Proof.Proofs.Transport

/-! ## Steps of a long operation -/

theorem opTicks_of_eq {a b c : State} (h : OpTicks a b) (hbc : b = c) : OpTicks a c := hbc ▸ h

theorem opTicks_trans {a b c : State} (hab : OpTicks a b) (hbc : OpTicks b c) : OpTicks a c := hab.trans hbc

/-- Two ends agree when their parts do. -/
theorem ended_congr {code : ResultCode} {rx : Option (List Byte)} {rest : List Input} {time time' : Nat}
    {events events' : List Event} {s s' : State} (htime : time = time') (hevents : events = events') (hs : s = s') :
    ended code rx rest time events s = ended code rx rest time' events' s' := by
  rw [htime, hevents, hs]

/-- `LIFE <- v`. -/
def inLife (v : Life) (s : State) : State := { s with life := v }

/-- STREAMING_ON and TX after its commanded write (R28). -/
def streamingWritten (v : Bool) (w : WriteExchange) (s : State) : State :=
  { s with tx := none, ses := { s.ses with streamingOn := w.register v s.ses.streamingOn } }

/-- POWER_ON and TX after its commanded write (R27). -/
def powerWritten (v : Bool) (w : WriteExchange) (s : State) : State :=
  { s with tx := none, ses := { s.ses with powerOn := w.register v s.ses.powerOn } }

/-- POWER_RB and TX after its read-back (R215). -/
def powerReadBack (p : Params) (x : Exchange) (s : State) : State :=
  { s with
    tx := none
    ses := { s.ses with powerRb := match x.outcome with | .ok f => some (powerOf p f) | .error _ => s.ses.powerRb } }

/-- STREAM_RB and TX after its read-back (R215). -/
def streamReadBack (p : Params) (x : Exchange) (s : State) : State :=
  { s with
    tx := none
    ses := { s.ses with streamRb := match x.outcome with | .ok f => some (streamOf p f) | .error _ => s.ses.streamRb } }

section
variable {l next : Label} {rx : Option (List Byte)} {rest : List Input} {time : Nat} {events : List Event} {s : State}

/-- A step that only writes registers. -/
theorem written_ticks {f : State → State} (hrest : Settled rest)
    (hbegin : ∀ t, labelBegin l t = .ok ((f t).goto next))
    (hf : (f (standing l rx rest time events s)).goto next = standing next rx rest time events (f s)) :
    OpTicks (standing l rx rest time events s) (standing next rx rest time events (f s)) :=
  begin_ticks hrest ((hbegin _).trans (congrArg Except.ok hf))

/-- A step whose primitive is answered and that goes on: `f` has what it writes before its call, `g` what it writes on
the answer. -/
theorem answered_ticks {f g : State → State} {c : Call} {d m : Nat} {r : Reply} {rx' : Option (List Byte)}
    {more : List Event} (hmin : c.minTime (f s).par = m)
    (hbegin : labelBegin l (standing l rx (.reply d r :: rest) time events s) =
      .ok ((standing l rx (.reply d r :: rest) time events (f s)).issue c))
    (hfits : c.fits r = true)
    (hanswer : ∀ t e, labelAnswer l r (standing l rx rest t e (f s)) =
      standing next rx' rest t (e ++ more) (g (f s))) :
    OpTicks (standing l rx (.reply d r :: rest) time events s)
      (standing next rx' rest (time + (m + d)) (events ++ .call c (c.record r) :: more) (g (f s))) := by
  have hticks := call_ticks hbegin hfits
  rw [hanswer, hmin, ← List.append_cons] at hticks
  exact hticks

/-- A step whose primitive is answered and that goes on at once. -/
theorem called_ticks {f g : State → State} {c : Call} {d m : Nat} {r : Reply} (hmin : c.minTime (f s).par = m)
    (hbegin : labelBegin l (standing l rx (.reply d r :: rest) time events s) =
      .ok ((standing l rx (.reply d r :: rest) time events (f s)).issue c))
    (hfits : c.fits r = true)
    (hanswer : ∀ t e, labelAnswer l r (standing l rx rest t e (f s)) = standing next rx rest t e (g (f s))) :
    OpTicks (standing l rx (.reply d r :: rest) time events s)
      (standing next rx rest (time + (m + d)) (events ++ [.call c (c.record r)]) (g (f s))) :=
  answered_ticks hmin hbegin hfits fun t e => (hanswer t e).trans (by rw [List.append_nil])

/-- A step that waits (R301). -/
theorem wait_ticks {ms d : Nat}
    (hbegin : labelBegin l (standing l rx (.reply d .done :: rest) time events s) =
      .ok ((standing l rx (.reply d .done :: rest) time events s).issue (.wait ms)))
    (hanswer : ∀ t, labelAnswer l .done t = t.goto next) :
    OpTicks (standing l rx (.reply d .done :: rest) time events s)
      (standing next rx rest (time + (ms + d)) (events ++ [.call (.wait ms) .done]) s) :=
  called_ticks (f := id) (g := id) rfl hbegin rfl fun _ _ => hanswer _

/-! ## A commanded write (R210, R214) -/

section
variable {w : WriteExchange} {code : DiagCode} {p : Params} (hlit : p.lit = Config.lit)
  (hproper : w.Proper p.writeExpectsResponse) (hrest : Settled rest)
include hlit hproper hrest

/-- A write that its step calls: on Ok the step writes its register, on a failure it logs, and it goes on either way. -/
theorem commanded_ticks {op : UnitOp} {set : State → State} (hwrite : op.isWrite = true)
    (hbegin : ∀ t, labelBegin l t = .ok (t.unitEnter op))
    (hreturn : ∀ r t, labelReturn l r t = .ok (t.writeReturned (set t) code next r))
    (hset : ∀ r rx t e, (set (resulted l r rx rest t e s)).goto next =
      standing next rx rest t e (set { s with tx := none }))
    (hpar : s.par = p) :
    OpTicks (standing l rx (w.answers ++ rest) time events s)
      (standing next (w.rxAfter rx) rest (time + w.time p.tSettleMs)
        (events ++ w.events p.tSettleMs (op.frame p) ++ w.warning code l.name.op l.name)
        (if w.failure = none then set { s with tx := none } else { s with tx := none })) := by
  subst hpar
  have hticks := writes_ticks (l := l) (rx := rx) (time := time) (events := events) (s := s) (u := s) hlit hwrite
    hproper hrest (hbegin _)
  refine hticks.trans ?_
  generalize w.time s.par.tSettleMs = t
  generalize w.events s.par.tSettleMs (op.frame s.par) = e
  refine return_ticks hrest ((hreturn _ _).trans (congrArg Except.ok ?_))
  unfold writeResult WriteExchange.warning
  cases w.failure with
  | none =>
    rw [if_pos rfl, List.append_nil]
    exact hset _ _ _ _
  | some err =>
    rw [if_neg nofun]
    exact congrArg (State.goto next) (diag_resulted code _)

theorem streaming_write_ticks (v : Bool) (hbegin : ∀ t, labelBegin l t = .ok (t.unitEnter (.packetWrite v)))
    (hreturn : ∀ r t, labelReturn l r t = .ok (t.writeReturned (t.streamingSet v) code next r)) (hpar : s.par = p) :
    OpTicks (standing l rx (w.answers ++ rest) time events s)
      (standing next (w.rxAfter rx) rest (time + w.time p.tSettleMs)
        (events ++ w.events p.tSettleMs (UnitOp.frame p (.packetWrite v)) ++ w.warning code l.name.op l.name)
        (streamingWritten v w s)) := by
  refine opTicks_of_eq (commanded_ticks hlit hproper hrest rfl hbegin hreturn (fun _ _ _ _ => rfl) hpar) ?_
  unfold streamingWritten WriteExchange.register
  split_ifs <;> rfl

theorem power_write_ticks (v : Bool) (hbegin : ∀ t, labelBegin l t = .ok (t.unitEnter (.powerWrite v)))
    (hreturn : ∀ r t, labelReturn l r t = .ok (t.writeReturned (t.powerSet v) code next r)) (hpar : s.par = p) :
    OpTicks (standing l rx (w.answers ++ rest) time events s)
      (standing next (w.rxAfter rx) rest (time + w.time p.tSettleMs)
        (events ++ w.events p.tSettleMs (UnitOp.frame p (.powerWrite v)) ++ w.warning code l.name.op l.name)
        (powerWritten v w s)) := by
  refine opTicks_of_eq (commanded_ticks hlit hproper hrest rfl hbegin hreturn (fun _ _ _ _ => rfl) hpar) ?_
  unfold powerWritten WriteExchange.register
  split_ifs <;> rfl

end

end

/-! ## SUSPEND (R210) -/

/-- The whole of a SUSPEND. -/
theorem suspend_ticks {b : State} {w1 w2 : WriteExchange} {d : Nat} {rest : List Input} (hlife : b.life = .ready)
    (hfault : b.fault = false) (hrest : Settled rest) (hlit : b.par.lit = Config.lit)
    (hw1 : w1.Proper b.par.writeExpectsResponse) (hw2 : w2.Proper b.par.writeExpectsResponse) :
    OpTicks (standing .s0 none (w1.answers ++ .reply d .done :: (w2.answers ++ rest)) 0 [] b)
      (ended .ok (w2.rxAfter (w1.rxAfter none)) rest
        (w1.time b.par.tSettleMs + (b.par.tSuspGapMs + d) + w2.time b.par.tSettleMs)
        (List.flatten
          [w1.events b.par.tSettleMs (UnitOp.frame b.par (.packetWrite false)),
           w1.warning .suspStreamFail .suspend .s2,
           [.call (.wait b.par.tSuspGapMs) .done],
           w2.events b.par.tSettleMs (UnitOp.frame b.par (.powerWrite false)),
           w2.warning .suspPowerFail .suspend .s4,
           [.respond .ok none]])
        { b with
          life := .suspended, irqEn := false, irqPend := false, tx := none
          ses :=
            { b.ses with
              streamingOn := w1.register false b.ses.streamingOn
              powerOn := w2.register false b.ses.powerOn } }) := by
  have hgap : Settled (.reply d .done :: (w2.answers ++ rest)) := settled_reply _ _ _
  have hstart := settled_writeAnswers w1 (.reply d .done :: (w2.answers ++ rest))
  refine opTicks_trans (accept_ticks (first := .s1) (op := .suspend) (fun _ => rfl) hstart (.inl hfault)
    (by rw [hlife]; rfl)) ?_
  refine opTicks_trans (written_ticks (f := State.maskIrq) hstart (fun _ => rfl) rfl) ?_
  refine opTicks_trans (streaming_write_ticks hlit hw1 hgap false (fun _ => rfl) (fun _ _ => rfl) rfl) ?_
  refine opTicks_trans (wait_ticks (ms := b.par.tSuspGapMs) rfl fun _ => rfl) ?_
  refine opTicks_trans (power_write_ticks hlit hw2 hrest false (fun _ => rfl) (fun _ _ => rfl) rfl) ?_
  refine opTicks_trans (written_ticks (f := inLife .suspended) hrest (fun _ => rfl) rfl) ?_
  refine opTicks_of_eq (finish_ticks (l := .s6) (code := .ok) (v := none) hrest nofun rfl) (ended_congr ?_ ?_ ?_)
  · rw [Nat.zero_add]
  · simp [Label.name, StepName.op]
  · rfl

/-- Settles O35: the steps S0 to S6 along their script. -/
theorem suspendCompletes : Obligations.SuspendCompletes := by
  intro s w1 w2 d rest hrest hlife hfault hsettled hlit hw1 hw2 hinbox settle
  obtain ⟨hpar, hlife', hfault', hses, -⟩ := takePort_fields .suspend s
  dsimp only [settle]
  rw [← hpar] at hlit hw1 hw2 ⊢
  rw [← hses]
  refine exec_of_script (l := .s0) rfl hrest ?_ rfl
  have hanswers : (s.takePort .suspend).inbox = w1.answers ++ .reply d .done :: (w2.answers ++ rest) := by
    simp [hinbox]
  rw [hanswers]
  exact suspend_ticks (hlife'.trans hlife) (hfault'.trans hfault) hsettled hlit hw1 hw2

/-! ## RESUME (R214, R215) -/

section
variable {l next : Label} {rx : Option (List Byte)} {rest : List Input} {time : Nat} {events : List Event} {s : State}
  {x : Exchange} {p : Params} (hlit : p.lit = Config.lit) (hproper : x.Proper) (hrest : Settled rest)
include hlit hproper hrest

/-- A read that its step calls, and what the step does as it returns. -/
theorem returned_ticks {op : UnitOp} {v : State} {more : List Event} (hread : op.isWrite = false)
    (hbegin : ∀ t, labelBegin l t = .ok (t.unitEnter op))
    (hreturn : ∀ rx t e, labelReturn l (exchangeResult p op x) (resulted l (exchangeResult p op x) rx rest t e s) =
      .ok (standing next rx rest t (e ++ more) v)) (hpar : s.par = p) :
    OpTicks (standing l rx (x.answers ++ rest) time events s)
      (standing next (x.rxAfter rx) rest (time + x.time p.tSettleMs)
        (events ++ x.events p.tSettleMs (op.frame p) ++ more) v) := by
  subst hpar
  exact (read_ticks (l := l) (rx := rx) (time := time) (events := events) (s := s) (u := s) hlit hread hproper hrest
    (hbegin _)).trans (return_ticks hrest (hreturn _ _ _))

/-- U3 (R215). -/
theorem power_read_back_ticks (hpar : s.par = p) :
    OpTicks (standing .u3 rx (x.answers ++ rest) time events s)
      (standing .u4 (x.rxAfter rx) rest (time + x.time p.tSettleMs)
        (events ++ x.events p.tSettleMs (UnitOp.frame p .powerRead) ++
          (match x.outcome with
           | .ok f => warnUnless (powerOf p f) .powerRbMismatch .resume .u3 (.power (powerOf p f))
           | .error e => [.diag ⟨.powerRbFail, .resume, some .u3, .transport e⟩]))
        (powerReadBack p x s)) := by
  refine returned_ticks hlit hproper hrest rfl (fun _ => rfl) (fun rx t e => congrArg Except.ok ?_) hpar
  unfold exchangeResult powerReadBack
  cases x.outcome with
  | error err => exact congrArg (State.goto .u4) (diag_resulted .powerRbFail _)
  | ok f =>
    have hvalue : unitValue p .powerRead f = .flag (powerOf p f) := rfl
    cases hv : powerOf p f <;>
      simp [State.powerReturned, State.powerReadBack, resulted, standing, State.goto, State.diag, State.emit,
        State.curOp, State.stepName, warnUnless, Label.name, StepName.op, hvalue, hv]

/-- U6 (R215). -/
theorem stream_read_back_ticks (hpar : s.par = p) :
    OpTicks (standing .u6 rx (x.answers ++ rest) time events s)
      (standing .u7 (x.rxAfter rx) rest (time + x.time p.tSettleMs)
        (events ++ x.events p.tSettleMs (UnitOp.frame p .packetRead) ++
          (match x.outcome with
           | .ok f => warnUnless (streamOf p f == .on) .streamRbMismatch .resume .u6 (.stream (streamOf p f))
           | .error e => [.diag ⟨.streamRbFail, .resume, some .u6, .transport e⟩]))
        (streamReadBack p x s)) := by
  refine returned_ticks hlit hproper hrest rfl (fun _ => rfl) (fun rx t e => congrArg Except.ok ?_) hpar
  unfold exchangeResult streamReadBack
  cases x.outcome with
  | error err => exact congrArg (State.goto .u7) (diag_resulted .streamRbFail _)
  | ok f =>
    have hvalue : unitValue p .packetRead f = .stream (streamOf p f) := rfl
    by_cases hv : streamOf p f = .on <;>
      simp [State.streamReturned, State.streamReadBack, resulted, standing, State.goto, State.diag,
        State.emit, State.curOp, State.stepName, warnUnless, Label.name, StepName.op, hvalue, hv]

end

/-- The whole of a RESUME. -/
theorem resume_ticks {b : State} {w1 w2 : WriteExchange} {d1 d2 : Nat} {x1 x2 : Exchange} {rest : List Input}
    (hlife : b.life = .suspended) (hfault : b.fault = false) (hrest : Settled rest) (hlit : b.par.lit = Config.lit)
    (hw1 : w1.Proper b.par.writeExpectsResponse) (hw2 : w2.Proper b.par.writeExpectsResponse) (hx1 : x1.Proper)
    (hx2 : x2.Proper) :
    OpTicks
      (standing .u0 none (w1.answers ++ .reply d1 .done :: (x1.answers ++
        (w2.answers ++ .reply d2 .done :: (x2.answers ++ rest)))) 0 [] b)
      (ended .ok (x2.rxAfter (w2.rxAfter (x1.rxAfter (w1.rxAfter none)))) rest
        (w1.time b.par.tSettleMs + (b.par.tResumeMs + d1) + x1.time b.par.tSettleMs + w2.time b.par.tSettleMs
          + (b.par.tResumeMs + d2) + x2.time b.par.tSettleMs)
        (List.flatten
          [w1.events b.par.tSettleMs (UnitOp.frame b.par (.powerWrite true)),
           w1.warning .resPowerFail .resume .u1,
           [.call (.wait b.par.tResumeMs) .done],
           x1.events b.par.tSettleMs (UnitOp.frame b.par .powerRead),
           (match x1.outcome with
            | .ok f => warnUnless (powerOf b.par f) .powerRbMismatch .resume .u3 (.power (powerOf b.par f))
            | .error e => [.diag ⟨.powerRbFail, .resume, some .u3, .transport e⟩]),
           w2.events b.par.tSettleMs (UnitOp.frame b.par (.packetWrite true)),
           w2.warning .resStreamFail .resume .u4,
           [.call (.wait b.par.tResumeMs) .done],
           x2.events b.par.tSettleMs (UnitOp.frame b.par .packetRead),
           (match x2.outcome with
            | .ok f =>
              warnUnless (streamOf b.par f == .on) .streamRbMismatch .resume .u6 (.stream (streamOf b.par f))
            | .error e => [.diag ⟨.streamRbFail, .resume, some .u6, .transport e⟩]),
           [.respond .ok none]])
        { b with
          life := .ready, irqEn := true, tx := none
          ses :=
            { b.ses with
              powerOn := w1.register true b.ses.powerOn
              powerRb := (match x1.outcome with | .ok f => some (powerOf b.par f) | .error _ => b.ses.powerRb)
              streamingOn := w2.register true b.ses.streamingOn
              streamRb :=
                (match x2.outcome with | .ok f => some (streamOf b.par f) | .error _ => b.ses.streamRb) } }) := by
  have h5 := settled_answers x2 rest
  have h4 : Settled (.reply d2 .done :: (x2.answers ++ rest)) := settled_reply _ _ _
  have h3 := settled_writeAnswers w2 (.reply d2 .done :: (x2.answers ++ rest))
  have h2 := settled_answers x1 (w2.answers ++ .reply d2 .done :: (x2.answers ++ rest))
  have h1 : Settled (.reply d1 .done :: (x1.answers ++ (w2.answers ++ .reply d2 .done :: (x2.answers ++ rest)))) :=
    settled_reply _ _ _
  have h0 := settled_writeAnswers w1
    (.reply d1 .done :: (x1.answers ++ (w2.answers ++ .reply d2 .done :: (x2.answers ++ rest))))
  refine opTicks_trans (accept_ticks (first := .u1) (op := .resume) (fun _ => rfl) h0 (.inl hfault)
    (by rw [hlife]; rfl)) ?_
  refine opTicks_trans (power_write_ticks hlit hw1 h1 true (fun _ => rfl) (fun _ _ => rfl) rfl) ?_
  refine opTicks_trans (wait_ticks (ms := b.par.tResumeMs) rfl fun _ => rfl) ?_
  refine opTicks_trans (power_read_back_ticks hlit hx1 h3 rfl) ?_
  refine opTicks_trans (streaming_write_ticks hlit hw2 h4 true (fun _ => rfl) (fun _ _ => rfl) rfl) ?_
  refine opTicks_trans (wait_ticks (ms := b.par.tResumeMs) rfl fun _ => rfl) ?_
  refine opTicks_trans (stream_read_back_ticks hlit hx2 hrest rfl) ?_
  refine opTicks_trans (written_ticks (f := State.unmaskIrq) hrest (fun _ => rfl) rfl) ?_
  refine opTicks_trans (written_ticks (f := inLife .ready) hrest (fun _ => rfl) rfl) ?_
  refine opTicks_of_eq (finish_ticks (l := .u9) (code := .ok) (v := none) hrest nofun rfl) (ended_congr ?_ ?_ ?_)
  · rw [Nat.zero_add]
  · simp [Label.name, StepName.op]
  · simp only [inLife, State.unmaskIrq, streamReadBack, streamingWritten, powerReadBack, powerWritten]

/-- Settles O36: the steps U0 to U9 along their script. -/
theorem resumeCompletes : Obligations.ResumeCompletes := by
  intro s w1 w2 d1 d2 x1 x2 rest hrest hlife hfault hsettled hlit hw1 hw2 hx1 hx2 hinbox settle
  obtain ⟨hpar, hlife', hfault', hses, -⟩ := takePort_fields .resume s
  dsimp only [settle]
  rw [← hpar] at hlit hw1 hw2 ⊢
  rw [← hses]
  refine exec_of_script (l := .u0) rfl hrest ?_ rfl
  have hanswers : (s.takePort .resume).inbox = w1.answers ++ .reply d1 .done :: (x1.answers ++
      (w2.answers ++ .reply d2 .done :: (x2.answers ++ rest))) := by
    simp [hinbox]
  rw [hanswers]
  exact resume_ticks (hlife'.trans hlife) (hfault'.trans hfault) hsettled hlit hw1 hw2 hx1 hx2

end Sys2Proof.Proofs.Script
end

/-! A successful ATTACH, run over every answer of the chip (44_lifecycle.md R201 to R206). -/

section
namespace Sys2Proof.Proofs.Script

open Sys2Proof Sys2Proof.Machine Sys2Proof.Safety Sys2Proof.Proofs.Ticks Sys2Proof.Proofs.Location
  Sys2Proof.Proofs.Steps Sys2Proof.Proofs.Transport

/-! ## What the steps of ATTACH write -/

/-- `PIN_RST <- h` (A3). -/
def pinRstHeld (h : Handle) (s : State) : State := { s with res := { s.res with pinRst := some h } }

/-- `PIN_INT <- h; RES_PINS <- true` (A4). -/
def pinIntHeld (h : Handle) (s : State) : State := { s with res := { s.res with pinInt := some h, pins := true } }

/-- `RES_IRQCFG <- true` (A5). -/
def irqCfgHeld (s : State) : State := { s with res := { s.res with irqCfg := true } }

/-- `RES_BUS <- true` (A6). -/
def busHeld (s : State) : State := { s with res := { s.res with bus := true } }

/-- `RES_HOST <- true` (A18). -/
def hostHeld (s : State) : State := { s with res := { s.res with host := true } }

/-- LIFE, TX and FW_VERSION after the first query (A10, A11). -/
def versionQueried (v : BitVec 16) (s : State) : State :=
  { s with life := .queryInfo, tx := none, ses := { s.ses with fwVersion := some v } }

/-- TX and WIDTH after the second query (A13, A14). -/
def widthQueried (v : BitVec 12) (s : State) : State :=
  { s with tx := none, ses := { s.ses with width := some v } }

/-- TX and HEIGHT after the third query (A16, A17). -/
def heightQueried (v : BitVec 12) (s : State) : State :=
  { s with tx := none, ses := { s.ses with height := some v } }

/-! None of them writes a parameter, and the resources stand apart from the session. -/

section
variable (s : State)

@[simp] theorem captureConfig_par (c : ValidCfg) : (s.captureConfig c).par = s.par := rfl

@[simp] theorem pinRstHeld_par (h : Handle) : (pinRstHeld h s).par = s.par := rfl

@[simp] theorem pinIntHeld_par (h : Handle) : (pinIntHeld h s).par = s.par := rfl

@[simp] theorem irqCfgHeld_par : (irqCfgHeld s).par = s.par := rfl

@[simp] theorem busHeld_par : (busHeld s).par = s.par := rfl

@[simp] theorem inLife_par (l : Life) : (inLife l s).par = s.par := rfl

@[simp] theorem versionQueried_par (v : BitVec 16) : (versionQueried v s).par = s.par := rfl

@[simp] theorem widthQueried_par (v : BitVec 12) : (widthQueried v s).par = s.par := rfl

@[simp] theorem pinRstHeld_ses (h : Handle) : (pinRstHeld h s).ses = s.ses := rfl

@[simp] theorem pinIntHeld_ses (h : Handle) : (pinIntHeld h s).ses = s.ses := rfl

@[simp] theorem irqCfgHeld_ses : (irqCfgHeld s).ses = s.ses := rfl

@[simp] theorem busHeld_ses : (busHeld s).ses = s.ses := rfl

@[simp] theorem inLife_ses (l : Life) : (inLife l s).ses = s.ses := rfl

@[simp] theorem versionQueried_ses (v : BitVec 16) :
    (versionQueried v s).ses = { s.ses with fwVersion := some v } := rfl

@[simp] theorem widthQueried_ses (v : BitVec 12) : (widthQueried v s).ses = { s.ses with width := some v } := rfl

@[simp] theorem heightQueried_ses (v : BitVec 12) : (heightQueried v s).ses = { s.ses with height := some v } := rfl

@[simp] theorem captureConfig_cfgIrqMode (c : ValidCfg) : (s.captureConfig c).ses.cfgIrqMode = some c.irqMode := rfl

@[simp] theorem captureConfig_cfgSmx (c : ValidCfg) : (s.captureConfig c).ses.cfgSmx = some c.smx := rfl

@[simp] theorem captureConfig_cfgSmy (c : ValidCfg) : (s.captureConfig c).ses.cfgSmy = some c.smy := rfl

end

section
variable {l next : Label} {rx : Option (List Byte)} {rest : List Input} {time : Nat} {events : List Event} {s : State}
  {p : Params}

/-- A1 lets a valid record go on (R282). -/
theorem valid_ticks {cfg : Option CfgRecord} {v : ValidCfg} (hrest : Settled rest)
    (hvalid : validate s.par cfg = some v) :
    OpTicks (standing (.a1 cfg) rx rest time events s) (standing (.a2 v) rx rest time events s) :=
  begin_ticks hrest (congrArg Except.ok
    (checkConfig_valid (s := standing (.a1 cfg) rx rest time events s) hvalid))

/-- A9 answered with four bytes (R203). -/
theorem hello_ticks {d : Nat} {b0 b1 b2 b3 : Byte} (hlit : p.lit = Config.lit) (hpar : s.par = p) :
    OpTicks (standing .a9 rx (.reply d (.received 4 [b0, b1, b2, b3]) :: rest) time events s)
      (standing .a10 (some [b0, b1, b2, b3]) rest (time + (0 + d))
        (events ++ .call (.busRecv 4) (.received 4 [b0, b1, b2, b3]) ::
          warnUnless ([b0, b1, b2, b3] == [0x55, 0x55, 0x55, 0x55]) .helloMismatch .attach .a9
            (.bytes [b0, b1, b2, b3]))
        (inLife .awaitHello s)) := by
  subst hpar
  have hlen : s.par.lit.helloLen = 4 := by rw [hlit]; rfl
  have hgood : List.replicate s.par.lit.helloLen s.par.lit.helloByte = [0x55, 0x55, 0x55, 0x55] := by rw [hlit]; rfl
  refine answered_ticks (f := inLife .awaitHello) (g := id) (c := .busRecv 4) rfl (by rw [← hlen]; rfl) rfl
    fun t e => ?_
  have hcheck : helloGood s.par [b0, b1, b2, b3] = ([b0, b1, b2, b3] == [0x55, 0x55, 0x55, 0x55]) := by
    rw [helloGood, hgood]
  rw [← hcheck]
  cases hg : helloGood s.par [b0, b1, b2, b3] <;>
    simp [labelAnswer, Reply.onReceived, State.helloAnswered, State.helloReceived, standing, inLife, State.goto,
      State.diag, State.emit, State.curOp, State.stepName, Label.name, StepName.op, warnUnless, hlen, hg]

/-- A query of ATTACH that the chip answers with a good response (R112, R204), and the step that writes its register:
`u` has what the query's step writes before it, `v` what the next one writes. -/
theorem query_ticks {op : UnitOp} {register : Label} {u v : State} {frame : List Byte} {d : Nat → Nat} {n : Nat}
    {r1 r2 r3 : Byte} (hlit : p.lit = Config.lit) (hrest : Settled rest) (hread : op.isWrite = false)
    (hframe : op.frame p = frame) (hpar : u.par = p)
    (hbegin : ∀ i, labelBegin l (standing l rx i time events s) = .ok ((standing l rx i time events u).unitEnter op))
    (hreturn : ∀ rx t e, labelReturn l (.ok (unitValue p op [0x52, r1, r2, r3]))
      (resulted l (.ok (unitValue p op [0x52, r1, r2, r3])) rx rest t e u) =
        .ok (standing register rx rest t e { u with tx := none }))
    (hwrite : ∀ rx t e, labelBegin register (standing register rx rest t e { u with tx := none }) =
      .ok (standing next rx rest t e v)) :
    OpTicks (standing l rx (transactAnswers d n r1 r2 r3 ++ rest) time events s)
      (standing next (some [0x52, r1, r2, r3]) rest
        (time + (d n + (p.tSettleMs + d (n + 1)) + d (n + 2)))
        (events ++ transactEvents p.tSettleMs frame r1 r2 r3) v) := by
  subst hpar
  subst hframe
  have hticks := read_ticks (x := .replies (d n) (d (n + 1)) (d (n + 2)) 0x52 r1 r2 r3) (l := l) (rx := rx)
    (time := time) (events := events) (s := s) (u := u) hlit hread trivial hrest (hbegin _)
  exact hticks.trans ((return_ticks hrest (hreturn _ _ _)).trans (begin_ticks hrest (hwrite _ _ _)))

end

section
variable {rx : Option (List Byte)} {rest : List Input} {time : Nat} {events : List Event} {s : State} {p : Params}
  {d : Nat}

/-- A3 with a handle (R202). -/
theorem reset_pin_ticks {h : Handle} :
    OpTicks (standing .a3 rx (.reply d (.pin (some h)) :: rest) time events s)
      (standing .a4 rx rest (time + (0 + d)) (events ++ [.call (.requestPin .reset) (.pin (some h))])
        (pinRstHeld h s)) :=
  called_ticks (f := id) rfl rfl rfl fun _ _ => rfl

/-- A4 with a handle (R202). -/
theorem int_pin_ticks {h : Handle} :
    OpTicks (standing .a4 rx (.reply d (.pin (some h)) :: rest) time events s)
      (standing .a5 rx rest (time + (0 + d)) (events ++ [.call (.requestPin .int) (.pin (some h))])
        (pinIntHeld h s)) :=
  called_ticks (f := id) rfl rfl rfl fun _ _ => rfl

/-- A5 passes the configured interrupt mode on (R202). -/
theorem configure_ticks {m : IrqMode} (hmode : s.ses.cfgIrqMode = some m) :
    OpTicks (standing .a5 rx (.reply d .done :: rest) time events s)
      (standing .a6 rx rest (time + (0 + d)) (events ++ [.call (.configureInterrupt m) .done]) (irqCfgHeld s)) :=
  called_ticks (f := id) (c := .configureInterrupt m) rfl (readReg_map_ok.mpr ⟨m, hmode, rfl⟩) rfl fun _ _ => rfl

/-- A6 with the bus opened (R202). -/
theorem bus_ticks :
    OpTicks (standing .a6 rx (.reply d (.opened true) :: rest) time events s)
      (standing .a7 rx rest (time + (0 + d)) (events ++ [.call .busOpen (.opened true)]) (busHeld s)) :=
  called_ticks (f := id) rfl rfl rfl fun _ _ => rfl

/-- A7 pulses the reset line (R280). -/
theorem pulse_ticks (hpar : s.par = p) :
    OpTicks (standing .a7 rx (.reply d .done :: rest) time events s)
      (standing .a8 rx rest (time + (p.tRstLowMs + p.tRstHighMs + d)) (events ++ [.call .pulseReset .done])
        (inLife .reset s)) := by
  subst hpar
  exact called_ticks (f := inLife .reset) (g := id) rfl rfl rfl fun _ _ => rfl

/-- A8 (R301). -/
theorem hello_wait_ticks (hpar : s.par = p) :
    OpTicks (standing .a8 rx (.reply d .done :: rest) time events s)
      (standing .a9 rx rest (time + (p.tHelloWaitMs + d)) (events ++ [.call (.wait p.tHelloWaitMs) .done]) s) := by
  subst hpar
  exact wait_ticks rfl fun _ => rfl

/-- A12 and A15 (R301). -/
theorem gap_ticks {l next : Label} (hgap : l = .a12 ∧ next = .a13 ∨ l = .a15 ∧ next = .a16) (hpar : s.par = p) :
    OpTicks (standing l rx (.reply d .done :: rest) time events s)
      (standing next rx rest (time + (p.tQGapMs + d)) (events ++ [.call (.wait p.tQGapMs) .done]) s) := by
  subst hpar
  rcases hgap with ⟨rfl, rfl⟩ | ⟨rfl, rfl⟩
  · exact wait_ticks rfl fun _ => rfl
  · exact wait_ticks rfl fun _ => rfl

/-- A18 registers the configured maxima (R205). -/
theorem register_ticks {x y : BitVec 16} (hx : s.ses.cfgSmx = some x) (hy : s.ses.cfgSmy = some y) :
    OpTicks (standing .a18 rx (.reply d (.registered true) :: rest) time events s)
      (standing .a19 rx rest (time + (0 + d)) (events ++ [.call (.hostRegister x y) (.registered true)])
        (hostHeld s)) :=
  called_ticks (f := id) (c := .hostRegister x y) rfl
    (readReg_bind_ok.mpr ⟨x, hx, readReg_map_ok.mpr ⟨y, hy, rfl⟩⟩) rfl fun _ _ => rfl

/-- A19 and A20 end the ATTACH (R206). -/
theorem ready_ticks (hrest : Settled rest) :
    OpTicks (standing .a19 rx rest time events s)
      (ended .ok rx rest time (events ++ [.respond .ok none]) (inLife .ready s.unmaskIrq)) :=
  (begin_ticks (l := .a19) (t := standing .a20 rx rest time events s.unmaskIrq) hrest rfl).trans
    (finish_ticks (l := .a20) (u := inLife .ready s.unmaskIrq) hrest nofun rfl)

end

section
variable {rx : Option (List Byte)} {rest : List Input} {time : Nat} {events : List Event} {s : State} {p : Params}
  {d : Nat → Nat} {n : Nat} {r1 r2 r3 : Byte} (hlit : p.lit = Config.lit) (hrest : Settled rest)
include hlit hrest

/-- A10 and A11 (R204). -/
theorem version_ticks (hpar : s.par = p) :
    OpTicks (standing .a10 rx (transactAnswers d n r1 r2 r3 ++ rest) time events s)
      (standing .a12 (some [0x52, r1, r2, r3]) rest
        (time + (d n + (p.tSettleMs + d (n + 1)) + d (n + 2)))
        (events ++ transactEvents p.tSettleMs [0x53, 0x00, p.readFwVer.hi, p.readFwVer.lo] r1 r2 r3)
        (versionQueried (fwVersionOf [0x52, r1, r2, r3]) s)) :=
  query_ticks (register := .a11 (fwVersionOf [0x52, r1, r2, r3])) (u := inLife .queryInfo s) hlit hrest rfl
    (read_frame hlit rfl) hpar (fun _ => rfl) (fun _ _ _ => rfl) fun _ _ _ => rfl

/-- A13 and A14 (R204). -/
theorem width_ticks (hpar : s.par = p) :
    OpTicks (standing .a13 rx (transactAnswers d n r1 r2 r3 ++ rest) time events s)
      (standing .a15 (some [0x52, r1, r2, r3]) rest
        (time + (d n + (p.tSettleMs + d (n + 1)) + d (n + 2)))
        (events ++ transactEvents p.tSettleMs [0x53, 0x63, p.readWidth.hi, p.readWidth.lo] r1 r2 r3)
        (widthQueried (dimensionOf [0x52, r1, r2, r3]) s)) :=
  query_ticks (register := .a14 (dimensionOf [0x52, r1, r2, r3])) (u := s) hlit hrest rfl
    (read_frame hlit rfl) hpar (fun _ => rfl) (fun _ _ _ => rfl) fun _ _ _ => rfl

/-- A16 and A17 (R204). -/
theorem height_ticks (hpar : s.par = p) :
    OpTicks (standing .a16 rx (transactAnswers d n r1 r2 r3 ++ rest) time events s)
      (standing .a18 (some [0x52, r1, r2, r3]) rest
        (time + (d n + (p.tSettleMs + d (n + 1)) + d (n + 2)))
        (events ++ transactEvents p.tSettleMs [0x53, 0x60, p.readHeight.hi, p.readHeight.lo] r1 r2 r3)
        (heightQueried (dimensionOf [0x52, r1, r2, r3]) s)) :=
  query_ticks (register := .a17 (dimensionOf [0x52, r1, r2, r3])) (u := s) hlit hrest rfl
    (read_frame hlit rfl) hpar (fun _ => rfl) (fun _ _ _ => rfl) fun _ _ _ => rfl

end

/-- What the collaborators answer to a successful ATTACH. -/
def attachAnswers (d : Nat → Nat) (h1 h2 : Handle) (b0 b1 b2 b3 f1 f2 f3 w1 w2 w3 g1 g2 g3 : Byte)
    (rest : List Input) : List Input :=
  .reply (d 0) (.pin (some h1)) :: .reply (d 1) (.pin (some h2)) :: .reply (d 2) .done ::
    .reply (d 3) (.opened true) :: .reply (d 4) .done :: .reply (d 5) .done ::
    .reply (d 6) (.received 4 [b0, b1, b2, b3]) :: (transactAnswers d 7 f1 f2 f3 ++ .reply (d 10) .done ::
      (transactAnswers d 11 w1 w2 w3 ++ .reply (d 14) .done ::
        (transactAnswers d 15 g1 g2 g3 ++ .reply (d 18) (.registered true) :: rest)))

/-- The whole of a successful ATTACH. -/
theorem attach_ticks {cfg : Option CfgRecord} {v : ValidCfg} {b : State} {d : Nat → Nat} {h1 h2 : Handle}
    {b0 b1 b2 b3 f1 f2 f3 w1 w2 w3 g1 g2 g3 : Byte} {rest : List Input} (hlife : b.life = .cold)
    (hfault : b.fault = false) (hvalid : validate b.par cfg = some v) (hrest : Settled rest)
    (hlit : b.par.lit = Config.lit) :
    OpTicks
      (standing (.a0 cfg) none (attachAnswers d h1 h2 b0 b1 b2 b3 f1 f2 f3 w1 w2 w3 g1 g2 g3 rest) 0 [] b)
      (ended .ok (some [0x52, g1, g2, g3]) rest
        (b.par.tRstLowMs + b.par.tRstHighMs + b.par.tHelloWaitMs + 3 * b.par.tSettleMs + 2 * b.par.tQGapMs
          + ((List.range 19).map d).sum)
        (List.flatten
          [[.call (.requestPin .reset) (.pin (some h1)), .call (.requestPin .int) (.pin (some h2)),
            .call (.configureInterrupt v.irqMode) .done, .call .busOpen (.opened true), .call .pulseReset .done,
            .call (.wait b.par.tHelloWaitMs) .done, .call (.busRecv 4) (.received 4 [b0, b1, b2, b3])],
           warnUnless ([b0, b1, b2, b3] == [0x55, 0x55, 0x55, 0x55]) .helloMismatch .attach .a9
            (.bytes [b0, b1, b2, b3]),
           transactEvents b.par.tSettleMs [0x53, 0x00, b.par.readFwVer.hi, b.par.readFwVer.lo] f1 f2 f3,
           [.call (.wait b.par.tQGapMs) .done],
           transactEvents b.par.tSettleMs [0x53, 0x63, b.par.readWidth.hi, b.par.readWidth.lo] w1 w2 w3,
           [.call (.wait b.par.tQGapMs) .done],
           transactEvents b.par.tSettleMs [0x53, 0x60, b.par.readHeight.hi, b.par.readHeight.lo] g1 g2 g3,
           [.call (.hostRegister v.smx v.smy) (.registered true), .respond .ok none]])
        { b with
          life := .ready, irqEn := true, tx := none
          res := { pins := true, irqCfg := true, bus := true, host := true, pinRst := some h1, pinInt := some h2 }
          ses :=
            { b.ses with
              fwVersion := some (fwVersionOf [0x52, f1, f2, f3]), width := some (dimensionOf [0x52, w1, w2, w3])
              height := some (dimensionOf [0x52, g1, g2, g3])
              cfgSmx := some v.smx, cfgSmy := some v.smy, cfgRx := some v.rx, cfgRy := some v.ry, cfgXy := some v.xy
              cfgIrqMode := some v.irqMode, cfgSnx := (v.sensor.map Prod.fst).or b.ses.cfgSnx
              cfgSny := (v.sensor.map Prod.snd).or b.ses.cfgSny } }) := by
  unfold attachAnswers
  refine opTicks_trans (accept_ticks (first := .a1 cfg) (op := .attach) (fun _ => rfl) (settled_reply _ _ _)
    (.inl hfault) (by rw [hlife]; rfl)) ?_
  refine opTicks_trans (valid_ticks (settled_reply _ _ _) hvalid) ?_
  refine opTicks_trans (written_ticks (f := State.captureConfig v) (settled_reply _ _ _) (fun _ => rfl) rfl) ?_
  refine opTicks_trans reset_pin_ticks (opTicks_trans int_pin_ticks (opTicks_trans
    (configure_ticks (m := v.irqMode) (by simp)) (opTicks_trans bus_ticks ?_)))
  refine opTicks_trans (pulse_ticks (p := b.par) (by simp)) ?_
  refine opTicks_trans (hello_wait_ticks (p := b.par) (by simp)) ?_
  refine opTicks_trans (hello_ticks hlit (by simp)) ?_
  refine opTicks_trans (version_ticks hlit (settled_reply _ _ _) (by simp)) ?_
  refine opTicks_trans (gap_ticks (p := b.par) (.inl ⟨rfl, rfl⟩) (by simp)) ?_
  refine opTicks_trans (width_ticks hlit (settled_reply _ _ _) (by simp)) ?_
  refine opTicks_trans (gap_ticks (p := b.par) (.inr ⟨rfl, rfl⟩) (by simp)) ?_
  refine opTicks_trans (height_ticks hlit (settled_reply _ _ _) (by simp)) ?_
  refine opTicks_trans (register_ticks (x := v.smx) (y := v.smy) (by simp) (by simp)) ?_
  refine opTicks_of_eq (ready_ticks hrest) (ended_congr ?_ ?_ ?_)
  · simp only [List.range_succ, List.range_zero, List.map_append, List.map_cons, List.map_nil, List.nil_append,
      List.sum_append, List.sum_cons, List.sum_nil, Nat.reduceAdd]
    omega
  · simp [transactEvents]
  · simp only [inLife, State.unmaskIrq, hostHeld, heightQueried, widthQueried, versionQueried, busHeld, irqCfgHeld,
      pinIntHeld, pinRstHeld, State.captureConfig]

/-- Settles O31: the steps A0 to A20 along their script. -/
theorem attachSucceeds : Obligations.AttachSucceeds := by
  intro cfg v s d h1 h2 b0 b1 b2 b3 f1 f2 f3 w1 w2 w3 g1 g2 g3 rest hrest hlife hfault hvalid hsettled hlit hinbox
    settle good
  obtain ⟨hpar, hlife', hfault', hses, -⟩ := takePort_fields (.attach cfg) s
  dsimp only [settle, good]
  rw [← hpar] at hvalid hlit ⊢
  rw [← hses]
  refine exec_of_script (l := .a0 cfg) rfl hrest ?_ rfl
  have hanswers : (s.takePort (.attach cfg)).inbox =
      attachAnswers d h1 h2 b0 b1 b2 b3 f1 f2 f3 w1 w2 w3 g1 g2 g3 rest := by
    simp [hinbox, attachAnswers]
  rw [hanswers]
  exact attach_ticks (hlife'.trans hlife) (hfault'.trans hfault) hvalid hsettled hlit

end Sys2Proof.Proofs.Script
end
